-- ==== Sys2Proof/Word.lean ====
section
/-! DEFINITION. The words that cross the links, and the plainest arithmetic on counters. -/

namespace Sys2Proof

/-- One byte on the request link (R191: data 0 is the least significant bit). -/
abbrev Byte := BitVec 8

/-- An addition to a counter that saturates at `max` (00_scope, "Counters and saturation"). -/
def satAdd (max a b : Nat) : Nat := if a + b ≤ max then a + b else max

/-- The largest value of a one-byte, two-byte and four-byte counter. -/
def max8 : Nat := 255
def max16 : Nat := 65535
def max32 : Nat := 4294967295

end Sys2Proof
end

