-- ==== Sys2Proof/Syntax.lean ====
section
/-! DEFINITION. The commands of the LC-40: one constructor for each row of spec/opcode_table.json,
with the operands its rule names. Numbers that come from the outside are plain numbers, so that a
value out of its range can be sent and refused; WellFormed says which fit their fields. -/

namespace Sys2Proof

/-- The two accessors (00_scope, "Places"). -/
inductive AccId
  | a | b
  deriving DecidableEq, Repr

/-- Six characters of the single-byte character code (00_scope, "Volume serials"). -/
structure Serial where
  c0 : Byte
  c1 : Byte
  c2 : Byte
  c3 : Byte
  c4 : Byte
  c5 : Byte
  deriving DecidableEq, Repr

/-- A place: a cell, a station slot, a drive, or an accessor's gripper (00_scope, "Places"). -/
inductive Place
  | cell (n : Nat)
  | slot (n : Nat)
  | drive (n : Nat)
  | gripper (x : AccId)
  deriving DecidableEq, Repr

/-- What a reader finds in a cell, a slot or a gripper: nothing, or a reel whose label is a serial
(`some`) or unreadable (`none`) (R209, R211). -/
inductive Reading
  | empty
  | filled (label : Option Serial)
  deriving DecidableEq, Repr

/-- A drive's HOLDING reply: none, or a reel, its serial read or unreadable, LOADED or UNLOADED (R210). -/
inductive HoldingReply
  | nothing
  | reel (label : Option Serial) (loaded : Bool)
  deriving DecidableEq, Repr

/-- The fields of a Mount after its code (R68, R203). -/
structure MountBlock where
  tag : Nat
  serial : Serial
  path : Nat
  account : Nat
  priority : Nat
  access : Nat
  manualAllowed : Nat
  deriving DecidableEq, Repr

/-- The fields of a Mount Scratch (R69). -/
structure ScratchBlock where
  tag : Nat
  density : Nat
  path : Nat
  account : Nat
  priority : Nat
  expiryDays : Nat
  deriving DecidableEq, Repr

/-- The fields of an Enter Volume (R17, R203). -/
structure EnterBlock where
  serial : Serial
  classCode : Nat
  owner : Nat
  density : Nat
  ring : Nat
  expiry : Nat
  uses : Nat
  deriving DecidableEq, Repr

/-- One settable value: the flag that names it in the change set, and the value carried for it. -/
structure Change where
  flag : Nat
  value : Nat
  deriving DecidableEq, Repr

/-- The change set of an Update Volume (R19). -/
structure UpdateBlock where
  owner : Change
  expiry : Change
  ring : Change
  uses : Change
  density : Change
  deriving DecidableEq, Repr

/-- The change set of a Set Timers (R189), in the order of its table. -/
structure TimersBlock where
  step : Change
  threading : Change
  unload : Change
  manual : Change
  reannounce : Change
  stall : Change
  period : Change
  threshold : Change
  deriving DecidableEq, Repr

/-- The fields of a Define Library (R26, R27); `disabled` is the disabled-cell list. -/
structure LibraryBlock where
  columns : Nat
  perColumn : Nat
  stationColumn : Nat
  autoEnter : Nat
  autoDensity : Nat
  startMode : Nat
  disabled : List Nat
  deriving DecidableEq, Repr

/-- The fields of a Define Drive (R45); `paths` are its four path fields. -/
structure DriveBlock where
  drive : Nat
  kind : Nat
  column : Nat
  density1 : Nat
  density2 : Nat
  density3 : Nat
  pathCount : Nat
  path1 : Nat
  path2 : Nat
  path3 : Nat
  path4 : Nat
  threshold : Nat
  resetCleaning : Nat
  deriving DecidableEq, Repr

/-- The fields of a Post Message (R142); `text` is its 40-character text field. -/
structure MessageBlock where
  length : Nat
  text : List Byte
  mode : Nat
  deadline : Nat
  deriving DecidableEq, Repr

/-- The commands of the block, one constructor for each row of the table. -/
inductive Instr
  -- power and the request link port
  | powerOn (unit : Nat) (memoryKept doorOpen serviceOpen : Bool) (slots : List Reading)
  | powerFailWarning
  | selection (data : Byte) (reset : Bool)
  | selectDropped
  | endingComplete
  | ackStallExpiry
  | linkReset
  | invalidCommand (code : Nat)
  -- host commands of six bytes
  | testReady
  | requestSense
  | readAttention
  | setAttentionMask (mask : Nat)
  | inquire
  | cancel (tag : Nat)
  | releaseRequest (tag : Nat)
  | dismount (tag : Nat)
  | queryRequest (tag : Nat)
  | resumeLibrary
  | scanStation
  | confirmDrive (drive : Nat)
  | varyDrive (drive action : Nat)
  | varyPath (path action : Nat)
  | queryDrive (drive : Nat)
  | withdrawMessage (slot posting : Nat)
  | queryPrompt (slot : Nat)
  | suspendAccount (account : Nat)
  | resumeAccount (account : Nat)
  | closeAccount (account : Nat)
  | readAccount (account : Nat)
  | setLink (source action : Nat)
  | readLinks
  | restoreAccessor (accessor : Nat)
  -- host commands of ten bytes
  | mount (f : MountBlock)
  | mountScratch (f : ScratchBlock)
  | eject (tag : Nat) (serial : Serial) (priority : Nat)
  | cleanDrive (tag drive priority : Nat)
  | audit (tag first last priority : Nat)
  | enterVolume (f : EnterBlock)
  | queryVolume (serial : Serial)
  | updateVolume (serial : Serial) (f : UpdateBlock)
  | retireVolume (serial : Serial)
  | releaseToScratch (serial : Serial) (force : Nat)
  | listVolumes (after : Serial) (state classCode owner : Nat)
  | listRequests (state after : Nat)
  | openAccount (account limit quota : Nat)
  | updateAccount (account limit quota : Nat)
  | closePeriod (account stamp : Nat)
  | setCell (cell action : Nat)
  | setClock (day second : Nat)
  | setTimers (f : TimersBlock)
  -- host commands of sixteen bytes
  | defineLibrary (f : LibraryBlock)
  | formatCatalogue
  | defineDrive (f : DriveBlock)
  | postMessage (f : MessageBlock)
  -- the part's own steps and timers
  | formatClearing
  | auditPhase
  | enterReady
  | startLimitExpiry
  | reconcileQueryExpiry (drive : Nat)
  | threadingLimitExpiry (drive : Nat)
  | unloadLimitExpiry (drive : Nat)
  | stepLimitExpiry (x : AccId)
  | queueStallExpiry (tag : Nat)
  | manualDeadlineExpiry (posting : Nat)
  | hostMessageDeadlineExpiry (posting : Nat)
  | reAnnounceExpiry (posting : Nat)
  | periodTimerExpiry
  -- the panel link
  | keyNext (posting : Nat)
  | keyAccept (posting : Nat)
  | keyRefuse (posting : Nat)
  | keyDone (posting : Nat)
  | hello
  | panelMessageDiscarded
  -- accessor reports
  | picked (x : AccId) (number : Nat) (place : Place) (label : Option Serial)
  | pickEmpty (x : AccId) (number : Nat) (place : Place)
  | placed (x : AccId) (number : Nat) (place : Place)
  | placeBlocked (x : AccId) (number : Nat) (place : Place)
  | cellSeen (x : AccId) (number cell column : Nat) (seen : Reading)
  | scanDone (x : AccId) (number column : Nat)
  | moveDone (x : AccId) (number column : Nat)
  | gripper (x : AccId) (number column : Nat) (held : Reading)
  | accessorFaultReport (x : AccId) (number column code : Nat)
  -- drive reports
  | loadedReady (drive : Nat) (label : Option Serial)
  | loadFailed (drive : Nat)
  | unloaded (drive errors : Nat)
  | unloadPressed (drive : Nat)
  | reelRemoved (drive : Nat)
  | cleanNeeded (drive : Nat)
  | driveFaultReport (drive code : Nat)
  | online (drive : Nat)
  | offline (drive : Nat)
  | holding (drive : Nat) (reply : HoldingReply)
  -- station and service door
  | doorOpened
  | doorClosed
  | slot (slot : Nat) (seen : Reading)
  | serviceDoorOpened
  | serviceDoorClosed
  | floorMessageDiscarded
  -- handshakes and the clock
  | byteHandshake (byte : Byte)
  | ackRelease
  | clockSecond
  deriving DecidableEq, Repr

end Sys2Proof
end

