-- ==== Sys2Proof/Decode.lean ====
section
/-! DEFINITION. The words of the table: spec/opcode_table.json gives no row any bits, so no word spells a
command. The command blocks of the request link are read in Machine/Operands.lean. -/

namespace Sys2Proof

/-- The command a word of the table spells: none, since no row of the table has bits. -/
def decodeTableWord (_nbits _w : Nat) : Option Instr := none

end Sys2Proof
end

