-- ==== Sys2Proof/Config.lean ====
section
/-! DEFINITION. What an implementation fixes: the capacities of the part, the fixed times, and the
values the spec leaves to the implementation. -/

namespace Sys2Proof.Config

/-- Capacities ("Principal figures" of 00_scope). -/
def volumeRecords : Nat := 4096
def requestEntries : Nat := 48
def hostEntries : Nat := 40
def accountRecords : Nat := 128
def promptSlots : Nat := 16
def drives : Nat := 16
def stationSlots : Nat := 8
def listVolumesBatch : Nat := 40
def listRequestsBatch : Nat := 24

/-- The start limit (R186) and the ACK stall limit (R200), in seconds; both fixed. -/
def startLimit : Nat := 600
def ackStall : Nat := 10

/-- B's position at power-on with a bad image (R124). -/
def blankLastColumn : Nat := 47

/-- The revision byte that Inquire returns (R199): the spec gives no value, so nothing constrains it. -/
opaque revision : Byte

end Sys2Proof.Config
end

