-- ==== Sys2Proof/Machine/State.lean ====
section
/-! DEFINITION. The state of the LC-40 as plain data, and its value at power-on before the store check.
The records of each block of the spec stand together in one structure. -/

namespace Sys2Proof.Machine

/-! ## Clock and settings -/

/-- A reading of the library clock (00_scope, "The library clock"). -/
structure Clock where
  day : Nat
  second : Nat
  deriving DecidableEq, Repr

/-- The actions of the standing links, codes 0 to 5 (R164). -/
inductive Action
  | none | scanStation | queueClean | auditSpan | postNotice | raiseAttention
  deriving DecidableEq, Repr

/-- The eight values of Set Timers (R189), in seconds but for the threshold. -/
structure Timers where
  step : Nat
  threading : Nat
  unload : Nat
  manual : Nat
  reannounce : Nat
  stall : Nat
  period : Nat
  threshold : Nat
  deriving DecidableEq, Repr

/-- What stays as it is while a record event is taken: the clock, the link table (twelve entries, source
n at position n - 1), the attention mask, the timer values, the channel-path enable set (eight flags),
the unit address, and whether a power-fail warning has been taken. -/
structure Settings where
  clock : Clock
  clockSet : Bool
  links : List Action
  mask : Byte
  timers : Timers
  paths : List Bool
  unit : Nat
  warned : Bool
  deriving DecidableEq, Repr

/-! ## The outcome of a command -/

/-- The sense codes of R198. -/
inductive Sense
  | notReady | notFormatted | sequence | invalidCommand | invalidField | clockUnset
  | volumeUnknown | volumeExists | volumeInUse | volumeState | catalogueFull | cellState
  | ringAbsent | notExpired | noScratch
  | tagInUse | tagUnknown | requestState | noEligibleDrive | driveState | noCleaner
  | accountUnknown | accountSuspended | quota | accountExists | accountTableFull
  | stalePeriod | accountBusy
  | promptTableFull | promptUnknown | linkConflict | linkInvalid | doorOpen | accessorState
  deriving DecidableEq, Repr

/-- The subject of a sense record (R198). -/
inductive Subject
  | none
  | serial (s : Serial)
  | tag (n : Nat)
  | cell (n : Nat)
  | account (n : Nat)
  | drive (n : Nat)
  | slot (n : Nat)
  | source (n : Nat)
  | accessor (n : Nat)
  | prompt (n : Nat)
  deriving DecidableEq, Repr

/-- The sense record: a code and its subject (R198). -/
structure SenseRecord where
  code : Sense
  subject : Subject
  deriving DecidableEq, Repr

/-- One field of a data-in record: its width in bytes and its value. -/
structure Field where
  width : Nat
  value : Nat
  deriving DecidableEq, Repr

/-- How a command ends (R197): GOOD with its data-in, CHECK with its sense, or BUSY. -/
inductive Result
  | good (data : List Field)
  | check (code : Sense) (subject : Subject)
  | busy
  deriving DecidableEq, Repr

/-! ## The request link port -/

/-- The connection: FREE, waiting for SELECT to drop, or in one of the five phases (R192, R193). -/
inductive Conn
  | free | selecting | command | dataOut | dataIn | status | ending
  deriving DecidableEq, Repr

/-- The request link port (R191 to R202). `outData` are the data-out bytes taken, `outLeft` how many are
still to come, `inData` the data-in bytes not yet taken, `line` the byte offered on the data lines. -/
structure Port where
  conn : Conn
  req : Bool
  block : List Byte
  outData : List Byte
  outLeft : Nat
  inData : List Byte
  status : Byte
  line : Byte
  stall : Option Nat
  sense : Option SenseRecord
  /-- the outcome of the command last applied (the model's own field, log 5) -/
  last : Option Result
  deriving DecidableEq, Repr

/-! ## Record memory header -/

/-- The library definition (R26). -/
structure LibDef where
  columns : Nat
  perColumn : Nat
  stationColumn : Nat
  autoEnter : Bool
  autoDensity : Nat
  fullStart : Bool
  deriving DecidableEq, Repr

/-- The pending definition: the same fields and the disabled-cell list (R26). -/
structure PendingDef where
  lib : LibDef
  disabled : List Nat
  deriving DecidableEq, Repr

/-- The header of the record memory image (R175), and the pending definition (R26). -/
structure Store where
  mark : Bool
  checked : Bool
  lib : LibDef
  pendingDef : Option PendingDef
  deriving DecidableEq, Repr

/-! ## The catalogue -/

/-- The class of a volume with its class-bound fields (R1). -/
inductive VolClass
  | priv (owner expiry : Nat)
  | scratch
  | cleaner (uses : Nat)
  deriving DecidableEq, Repr

/-- The state of a volume with the place it names (R3). -/
inductive VolState
  | home
  | inTransit (x : AccId)
  | onDrive (d : Nat)
  | station (k : Nat)
  | shelf
  | missing
  deriving DecidableEq, Repr

/-- A volume record (R1). -/
structure Volume where
  serial : Serial
  cls : VolClass
  state : VolState
  homeCell : Option Nat
  density : Nat
  ring : Bool
  mounts : Nat
  errors : Nat
  lastMount : Option Nat
  holder : Option Nat
  deriving DecidableEq, Repr

/-- The catalogue: the records in ascending serial order, the scratch list, the scratch-low condition. -/
structure Catalogue where
  vols : List Volume
  scratch : List Serial
  low : Bool
  deriving DecidableEq, Repr

/-! ## Cells and the station -/

/-- A cell map entry (R28); an EMPTY cell may carry the tag of a RETURN as a reservation mark. -/
inductive Cell
  | empty (mark : Option Nat)
  | filled (s : Serial)
  | awaited (s : Serial)
  | foreign
  | disabled
  deriving DecidableEq, Repr

/-- Why a slot was rejected, codes 1 to 6 (R37). -/
inductive Reject
  | unreadable | unknownLabel | catalogueFull | notShelf | volumeInUse | libraryFull
  deriving DecidableEq, Repr

/-- A station slot record (R33): label, direction, claim and reject reason stand where they are present. -/
inductive Slot
  | empty
  | inbound (label : Option Serial)
  | pick (label : Option Serial) (claim : Nat)
  | place (claim : Nat)
  | outbound (label : Option Serial)
  | rejected (label : Option Serial) (why : Reject)
  deriving DecidableEq, Repr

/-- The place unit: the cell map by cell number, the eight slots, the station door and lock. -/
structure PlaceUnit where
  cells : List Cell
  slots : List Slot
  doorOpen : Bool
  locked : Bool
  deriving DecidableEq, Repr

/-! ## Drives -/

/-- AUTOMATED at a column, or MANUAL (R44). -/
inductive DriveKind
  | automated (column : Nat)
  | manual
  deriving DecidableEq, Repr

/-- The definition part of a drive record (R44). -/
structure DriveDef where
  kind : DriveKind
  densities : List Nat
  paths : List Nat
  threshold : Nat
  sinceClean : Nat
  lifeMounts : Nat
  lifeSeconds : Nat
  confirmed : Bool
  deriving DecidableEq, Repr

/-- Why a drive is RESERVED (R44). -/
inductive Cause
  | staged | current | manual
  deriving DecidableEq, Repr

/-- The state of a drive; the cause stands in RESERVED only, mounted-since in MOUNTED only (R44). -/
inductive DriveState
  | offline
  | idle
  | reserved (cause : Cause)
  | threading
  | mounted (since : Clock)
  | rewinding
  | awaitPick
  | cleaning
  | faulted
  deriving DecidableEq, Repr

/-- The reel at a drive (R44). -/
inductive Reel
  | none
  | recorded (s : Serial)
  | unrecorded
  deriving DecidableEq, Repr

/-- A drive record (R44) with its timers: the threading limit (R55), the unload limit (R57) and the bound
of a reconcile query (R180). `late` is set while a reply after that bound is still awaited (R180). -/
structure Drive where
  defn : Option DriveDef
  state : DriveState
  idleSince : Option Clock
  serving : Option Nat
  reel : Reel
  reported : Option Serial
  fault : Nat
  offPending : Bool
  cleanDue : Bool
  detached : Bool
  queried : Bool
  late : Bool
  threadLeft : Option Nat
  unloadLeft : Option Nat
  queryLeft : Option Nat
  deriving DecidableEq, Repr

/-! ## Requests -/

inductive Origin
  | link | internal
  deriving DecidableEq, Repr

/-- Request kinds, codes 1 to 7 (R64). -/
inductive Kind
  | mount | mountScratch | eject | clean | audit | imp | ret
  deriving DecidableEq, Repr

/-- Request states, codes 1 to 12 (R66). -/
inductive ReqState
  | held | queued | manual | fetching | moving | threading | mounted | rewinding | cleaning
  | returnReady | returning | done
  deriving DecidableEq, Repr

inductive Access
  | read | write
  deriving DecidableEq, Repr

/-- How a mount reaches its drive (R64). -/
inductive Route
  | library | manualDrive | station
  deriving DecidableEq, Repr

/-- Completion codes 0 to 9 (R88). -/
inductive Code
  | ok | cancelled | notReady | volumeMissing | loadFailed | driveFault | accessorFault
  | operatorRefused | promptTimeout | noDestination
  deriving DecidableEq, Repr

/-- What a request carries: nothing (AUDIT), a catalogued volume, or an unknown reel with its label (R87). -/
inductive Cargo
  | none
  | volume (s : Serial)
  | unknown (label : Option Serial)
  deriving DecidableEq, Repr

/-- An audit cursor (R64). -/
structure Cursor where
  next : Nat
  first : Nat
  last : Nat
  deriving DecidableEq, Repr

/-- A live request (R64), with its queue-stall timer (R91). -/
structure Request where
  tag : Nat
  origin : Origin
  kind : Kind
  cargo : Cargo
  drive : Option Nat
  path : Option Nat
  density : Option Nat
  account : Option Nat
  priority : Nat
  access : Option Access
  manualAllowed : Option Bool
  route : Option Route
  expiryDays : Option Nat
  state : ReqState
  arrival : Nat
  qseq : Option Nat
  arrived : Clock
  mountedAt : Option Clock
  accruedFrom : Option Clock
  source : Option Place
  cursor : Option Cursor
  bySpan : Bool
  cancelPending : Bool
  code : Option Code
  stallLeft : Option Nat
  deriving DecidableEq, Repr

/-- The request table: the live requests in the order of their entries, the arrival sequence counter, the
tag rotation pointer (R65), and the dispatcher's queue sequence counter (R94). -/
structure RequestTable where
  live : List Request
  arrivals : Nat
  nextTag : Nat
  queueSeq : Nat
  deriving DecidableEq, Repr

/-! ## Accessors -/

/-- A range of columns, both ends included. -/
structure Span where
  lo : Nat
  hi : Nat
  deriving DecidableEq, Repr

/-- The kinds of order with their places (R102). A TRANSFER without a destination is one held (R112). -/
inductive OrderKind
  | transfer (source : Place) (dest : Option Place)
  | scan (column : Nat)
  | yield (column : Nat)
  | home
  deriving DecidableEq, Repr

inductive Progress
  | notPicked | picked | blocked
  deriving DecidableEq, Repr

/-- An order: its kind and places, its number once sent, the request it serves, its step progress, and
whether a home cell was reserved for it under case 2 of R77 (R30). `station`: it has touched the station as a
current order, and does so until it ends, also while it is set aside (R105, R212). `asReturn`: its reel has lost
its drive, and its destination is decided as for a return (R77, R112). -/
structure Order where
  kind : OrderKind
  number : Option Nat
  serves : Option Nat
  progress : Progress
  newHome : Bool
  station : Bool := false
  asReturn : Bool := false
  deriving DecidableEq, Repr

/-- Why an accessor is FAULTED (R101). -/
inductive FaultCause
  | reported (code : Nat)
  | timeout
  | gripper
  deriving DecidableEq, Repr

/-- Accessor states (R101); the fault cause and column stand in FAULTED only. -/
inductive AccState
  | idle | moving | waitSpan | waitStation | halted
  | faulted (cause : FaultCause) (column : Nat)
  deriving DecidableEq, Repr

/-- What a GRIPPER-QUERY was sent for (R118, R122, R182). -/
inductive QueryFor
  | reconcile | resume | restore
  deriving DecidableEq, Repr

/-- Where an accessor's homing stands (R183, R188). -/
inductive Homing
  | notBegun | due | underWay | ended
  deriving DecidableEq, Repr

/-- An outstanding GRIPPER-QUERY. -/
structure Query where
  number : Nat
  purpose : QueryFor
  deriving DecidableEq, Repr

/-- An accessor context (R101), with its step timer (R108). -/
structure Accessor where
  state : AccState
  pos : Nat
  current : Option Order
  staged : Option Order
  span : Span
  need : Option Span
  counter : Nat
  query : Option Query
  frozen : Bool
  timer : Option Nat
  homing : Homing
  deriving DecidableEq, Repr

/-- Accessor control: the two contexts, which of them entered WAIT-SPAN first (R105), the interlock flag,
the service door, the halted span (R119). -/
structure Rail where
  accA : Accessor
  accB : Accessor
  firstWaiter : Option AccId
  interlock : Bool
  serviceOpen : Bool
  haltedSpan : Option Span
  deriving DecidableEq, Repr

/-! ## Prompts -/

/-- Prompt kinds, codes 1 to 16 (R127). -/
inductive PromptKind
  | interlock | accessorFault | driveAttention | manualMount | stationInsert | manualDismount
  | hostMessage | stationRemove | unknownVolume | volumeMissing | libraryFull | cleanerExhausted
  | scratchLow | queueStall | cleaningDue | periodDue
  deriving DecidableEq, Repr

/-- Announce modes, codes 0 to 2 (R125). -/
inductive Announce
  | silent | once | persistent
  deriving DecidableEq, Repr

/-- Answers, codes 1 to 3 (R125). -/
inductive Answer
  | accept | refuse | timeout
  deriving DecidableEq, Repr

/-- What a prompt names (R125). -/
structure PromptSubject where
  tag : Option Nat
  volume : Option Serial
  drive : Option Nat
  cell : Option Nat
  slot : Option Nat
  accessor : Option AccId
  deriving DecidableEq, Repr

/-- A prompt in a slot that is not FREE (R125): ANSWERED when it has an answer, POSTED otherwise.
`deadlineLeft` and `reannounceLeft` are its running timers. -/
structure Prompt where
  posting : Nat
  kind : PromptKind
  isRequest : Bool
  subject : PromptSubject
  detail : Nat
  text : List Byte
  mode : Announce
  announced : Bool
  posted : Clock
  deadline : Option Clock
  deadlineLeft : Option Nat
  reannounceLeft : Option Nat
  wrongVolume : Bool
  answer : Option Answer
  deriving DecidableEq, Repr

/-- An entry of the request-prompt waiting list (R140). -/
structure PromptWait where
  tag : Nat
  kind : PromptKind
  subject : PromptSubject
  detail : Nat
  qseq : Nat
  deriving DecidableEq, Repr

/-- The content of a PRESENT (R205). -/
structure Present where
  prompt : Prompt
  alert : Bool
  deriving DecidableEq, Repr

/-- The prompt unit (R125) and the last presentation sent, none for BLANK (R205). `stepped` is the model's own:
the posting named by the NEXT that brought the presented posting, none when another event brought it (log 30). -/
structure PromptUnit where
  slots : List (Option Prompt)
  counter : Nat
  presented : Option Nat
  waits : List PromptWait
  lastSent : Option Present
  stepped : Option Nat
  deriving DecidableEq, Repr

/-! ## Accounts -/

/-- An account record (R146). Its held, queued and owned counts are computed (log 16). -/
structure Account where
  number : Nat
  suspended : Bool
  limit : Nat
  quota : Option Nat
  mounts : Nat
  scratchMounts : Nat
  driveSeconds : Nat
  manual : Nat
  refusals : Nat
  overflow : Bool
  stamp : Nat
  periodStart : Clock
  lastRead : Option Clock
  deriving DecidableEq, Repr

/-- The accounting unit: the records by ascending number, and the period timer (R161). -/
structure Accounting where
  accounts : List Account
  periodLeft : Nat
  deriving DecidableEq, Repr

/-! ## Events and start-up -/

/-- Attention cause flags, bit n for cause n (R171), and the linked-source set, bit n - 1 for source n (R170). -/
structure Attention where
  causes : Byte
  linked : BitVec 16
  deriving DecidableEq, Repr

/-- Library states (R177). -/
inductive LibState
  | ready | starting | unformatted | formatting
  deriving DecidableEq, Repr

/-- Where start-up stands within STARTING (R179 to R184). -/
inductive Phase
  | storeCheck | reconcile | audit
  deriving DecidableEq, Repr

/-- The start limit (R186). -/
inductive StartLimit
  | stopped
  | running (left : Nat)
  | expired
  deriving DecidableEq, Repr

/-- The start-up unit: the library state, the phase, the start limit, the cells recorded AWAITED at the
store check (R179), the audit runs not yet made and the tags of those made (R184), and whether steps 1
to 3 of a format are still to be made (R188). -/
structure StartUp where
  state : LibState
  phase : Phase
  limit : StartLimit
  awaited : List Nat
  runs : List Span
  audits : List Nat
  clearing : Bool
  deriving DecidableEq, Repr

/-! ## Messages sent, and notes within a step -/

/-- What an ORDER carries (R208). -/
inductive OrderBody
  | transfer (source dest : Place) (expected : Option Serial)
  | scan (column : Nat)
  | yield (column : Nat)
  | home (side : AccId)
  deriving DecidableEq, Repr

inductive KeyName
  | next | accept | refuse | done
  deriving DecidableEq, Repr

inductive ReplyResult
  | taken | notValid | gone
  deriving DecidableEq, Repr

/-- The messages the part sends (R205, R208, R210, R211). -/
inductive Msg
  | order (x : AccId) (number : Nat) (body : OrderBody)
  | gripperQuery (x : AccId) (number : Nat)
  | halt (x : AccId)
  | unload (d : Nat)
  | holdingQuery (d : Nat)
  | lock
  | unlock
  | startAccessor (x : AccId)
  | startDrive (d : Nat)
  | startStation
  | startDoor
  | present (p : Present)
  | blank
  | reply (posting : Nat) (key : KeyName) (result : ReplyResult)
  deriving DecidableEq, Repr

/-- The event sources 1 to 12 (R163). -/
inductive Source
  | stationDoorClosed | serviceDoorClosed | cleaningRequested | cleaningDue | driveFault
  | accessorFault | volumeMissing | scratchLow | promptTimeout | queueStall | periodTimer
  | driveAttached
  deriving DecidableEq, Repr

/-- What a raising is about: the drive, the columns, the request, the accessor or the volume (R163). -/
structure Raising where
  source : Source
  drive : Option Nat
  columns : Option Span
  tag : Option Nat
  accessor : Option AccId := none
  volume : Option Serial := none
  deriving DecidableEq, Repr

/-- Notes of the step in hand, empty between steps: the sources raised, whether the dispatcher is to run
(R95), the MANUAL drives to be offered (R51), whether a cell or slot has freed (R29, R39), and whether a
request entry has freed (R65). -/
structure Notes where
  raised : List Raising
  wake : Bool
  offers : List Nat
  placeFreed : Bool
  entryFreed : Bool
  deriving DecidableEq, Repr

/-- The records of the library and the messages of the latest step. -/
structure Lib where
  store : Store
  cat : Catalogue
  place : PlaceUnit
  drives : List Drive
  reqs : RequestTable
  rail : Rail
  prompts : PromptUnit
  acct : Accounting
  att : Attention
  start : StartUp
  out : List Msg
  notes : Notes
  deriving DecidableEq, Repr

/-- The whole block: the settings, the request link port, the records, and the commands that wait. -/
structure State where
  set : Settings
  port : Port
  lib : Lib
  pending : List Instr
  deriving DecidableEq, Repr

/-- Why the block stops: it never does (INVENTORY, "Faults"). -/
inductive Fault
  /-- Raised by no meaning; it would be safe: the model would stop where the part goes on. -/
  | stuck
  deriving DecidableEq, Repr

/-- Why a command has no meaning in the model. -/
inductive Refusal
  /-- Raised by an arm of exec that has no meaning yet; safe: the model stops where the part goes on. -/
  | notModelled (mnemonic : String)
  deriving DecidableEq, Repr

/-! ## Power-on values -/

def Notes.none : Notes :=
  { raised := [], wake := false, offers := [], placeFreed := false, entryFreed := false }

/-- The default links of R164. -/
def defaultLinks : List Action :=
  [.scanStation, .auditSpan, .queueClean, .postNotice, .raiseAttention, .raiseAttention,
   .raiseAttention, .postNotice, .raiseAttention, .raiseAttention, .raiseAttention, .raiseAttention]

/-- The defaults of R189. -/
def defaultTimers : Timers :=
  { step := 120, threading := 90, unload := 300, manual := 900, reannounce := 60, stall := 900,
    period := 86400, threshold := 20 }

/-- Settings at power-on (R49, R164, R174, R189, R202; the clock by 00_scope), for the straps read. -/
def Settings.powerOn (unit : Nat) : Settings :=
  { clock := { day := 0, second := 0 }, clockSet := false, links := defaultLinks, mask := 0,
    timers := defaultTimers, paths := List.replicate 8 true, unit := unit, warned := false }

/-- The port at power-on (R202). -/
def Port.powerOn : Port :=
  { conn := .free, req := false, block := [], outData := [], outLeft := 0, inData := [], status := 0,
    line := 0, stall := none, sense := none, last := none }

/-- A drive at power-on with definition `d` (R63): the dynamic part starts afresh. -/
def Drive.powerOn (d : Option DriveDef) : Drive :=
  { defn := d, state := .offline, idleSince := none, serving := none, reel := .none,
    reported := none, fault := 0, offPending := false, cleanDue := false, detached := false,
    queried := false, late := false, threadLeft := none, unloadLeft := none, queryLeft := none }

/-- An accessor at power-on, standing at `pos` (R124). -/
def Accessor.powerOn (pos : Nat) : Accessor :=
  { state := .idle, pos := pos, current := none, staged := none, span := { lo := pos, hi := pos },
    need := none, counter := 0, query := none, frozen := false, timer := none, homing := .notBegun }

/-- Accessor control at power-on with B at the last column `last` (R124). -/
def Rail.powerOn (last : Nat) : Rail :=
  { accA := Accessor.powerOn 0, accB := Accessor.powerOn last, firstWaiter := none,
    interlock := false, serviceOpen := false, haltedSpan := none }

/-- The prompt unit at power-on (R145, R205). -/
def PromptUnit.powerOn : PromptUnit :=
  { slots := List.replicate Config.promptSlots none, counter := 0, presented := none, waits := [],
    lastSent := none, stepped := none }

/-- The request table and the dispatcher's counter at power-on (R93, R94). -/
def RequestTable.powerOn : RequestTable := { live := [], arrivals := 0, nextTag := 32768, queueSeq := 0 }

/-- The start-up unit at power-on (R177, R186). -/
def StartUp.powerOn : StartUp :=
  { state := .starting, phase := .storeCheck, limit := .running Config.startLimit, awaited := [],
    runs := [], audits := [], clearing := false }

/-- The station at power-on (R33), over a cell map. -/
def PlaceUnit.powerOn (cells : List Cell) : PlaceUnit :=
  { cells := cells, slots := List.replicate Config.stationSlots .empty, doorOpen := true,
    locked := false }

/-- A record memory that was never formatted (log 2). -/
def Store.blank : Store :=
  { mark := false, checked := false,
    lib := { columns := 0, perColumn := 0, stationColumn := 0, autoEnter := false, autoDensity := 0,
             fullStart := false },
    pendingDef := none }

/-- The records at power-on over a record memory that was never formatted, before the store check. -/
def Lib.blank : Lib :=
  { store := Store.blank
    cat := { vols := [], scratch := [], low := false }
    place := PlaceUnit.powerOn []
    drives := List.replicate Config.drives (Drive.powerOn none)
    reqs := RequestTable.powerOn
    rail := Rail.powerOn Config.blankLastColumn
    prompts := PromptUnit.powerOn
    acct := { accounts := [], periodLeft := 86400 }
    att := { causes := 0, linked := 0 }
    start := StartUp.powerOn
    out := []
    notes := Notes.none }

/-- The part at power-on, before the store check of POWER_ON, over a record memory never formatted
(logs 2 and 3), with no command waiting (log 4). -/
def State.reset : State :=
  { set := Settings.powerOn 0, port := Port.powerOn, lib := Lib.blank, pending := [] }

end Sys2Proof.Machine
end

