-- ==== Sys2Proof/Machine/Ops.lean ====
section
/-! DEFINITION. The operations every block shares: serials and clock readings, finding and changing one
record, sending a message, and noting what the rest of the step must do. -/

namespace Sys2Proof

/-! ## Serials -/

namespace Serial

/-- Space in the single-byte character code (log 1). -/
def space : Byte := 0x20

def isDigit (c : Byte) : Bool := 0x30 ≤ c.toNat && c.toNat ≤ 0x39
def isLetter (c : Byte) : Bool := 0x41 ≤ c.toNat && c.toNat ≤ 0x5A

def chars (s : Serial) : List Byte := [s.c0, s.c1, s.c2, s.c3, s.c4, s.c5]

/-- Spaces may stand only after the last other character. -/
def spacesLast : List Byte → Bool
  | [] => true
  | c :: cs => if c = space then cs.all (· = space) else spacesLast cs

/-- A valid volume serial (00_scope, "Volume serials"). -/
def valid (s : Serial) : Bool :=
  s.chars.all (fun c => isDigit c || isLetter c || c = space)
    && s.c0 ≠ space && spacesLast s.chars

/-- The six characters as one number, the first the most significant: comparing these numbers compares
the serials character by character. -/
def key (s : Serial) : Nat := s.chars.foldl (fun n c => n * 256 + c.toNat) 0

/-- Ascending serial order. -/
def lt (s t : Serial) : Bool := s.key < t.key

/-- A serial of all spaces. -/
def blank : Serial := ⟨space, space, space, space, space, space⟩

/-- Six bytes as a serial; bytes that are not there read as 0. -/
def ofBytes (b : List Byte) : Serial :=
  ⟨b.getD 0 0, b.getD 1 0, b.getD 2 0, b.getD 3 0, b.getD 4 0, b.getD 5 0⟩

end Serial

/-- A label that is not a valid serial counts as unreadable (R42, R209, R211). -/
def normLabel (l : Option Serial) : Option Serial := l.filter Serial.valid

namespace Machine

/-! ## Ordering -/

/-- Puts `x` in front of the first entry it does not come after. -/
def insertBy {α : Type} (lt : α → α → Bool) (x : α) : List α → List α
  | [] => [x]
  | y :: ys => if lt y x then y :: insertBy lt x ys else x :: y :: ys

/-- A stable sort; structural, so that a closed term evaluates. -/
def sortBy {α : Type} (lt : α → α → Bool) : List α → List α
  | [] => []
  | x :: xs => insertBy lt x (sortBy lt xs)

/-- Comparison of two keys, the first number first. -/
def lexLt (a b c d : Nat) : Bool := a < c || (a == c && b < d)

/-! ## Clock readings -/

/-- Seconds in one turn of the clock: 65,536 days. -/
def Clock.cycle : Nat := 65536 * 86400

/-- A reading as a number; numbers compare readings by day, then by second (R130). -/
def Clock.abs (c : Clock) : Nat := c.day * 86400 + c.second

/-- The reading that stands `n` seconds into a turn of the clock. -/
def Clock.ofAbs (n : Nat) : Clock :=
  { day := n % Clock.cycle / 86400, second := n % Clock.cycle % 86400 }

/-- The seconds elapsed from `earlier` to `later`, across midnights (00_scope, "The library clock"). -/
def Clock.elapsed (earlier later : Clock) : Nat :=
  (later.abs + Clock.cycle - earlier.abs) % Clock.cycle

/-- The reading `n` seconds after `c`. -/
def Clock.after (c : Clock) (n : Nat) : Clock := Clock.ofAbs (c.abs + n)

/-- The clock one second on; day 65,535 is followed by day 0 (00_scope). -/
def Clock.tick (c : Clock) : Clock :=
  if c.second < 86399 then { c with second := c.second + 1 }
  else { day := (c.day + 1) % 65536, second := 0 }

/-- A running timer one second on; one that has run out stays at 0 until its expiry is taken (log 8). -/
def countDown (t : Option Nat) : Option Nat := t.map (· - 1)

/-- A timer that has run out. -/
def isDue (t : Option Nat) : Bool := t = some 0

/-! ## The other accessor -/

def other : AccId → AccId
  | .a => .b
  | .b => .a

/-! ## Messages and notes -/

namespace Lib

/-- Sends a message on the floor or panel link. -/
def send (m : Msg) (l : Lib) : Lib := { l with out := l.out ++ [m] }

/-- Raises an event source (R163); its action is made after the record changes of the step. -/
def raise (r : Raising) (l : Lib) : Lib :=
  { l with notes := { l.notes with raised := l.notes.raised ++ [r] } }

/-- Raises a source with no subject. -/
def raisePlain (s : Source) (l : Lib) : Lib :=
  l.raise { source := s, drive := none, columns := none, tag := none }

/-- Raises a source whose subject is a drive. -/
def raiseDrive (s : Source) (d : Nat) (l : Lib) : Lib :=
  l.raise { source := s, drive := some d, columns := none, tag := none }

/-- Raises a source whose subject is a request. -/
def raiseRequest (s : Source) (t : Nat) (l : Lib) : Lib :=
  l.raise { source := s, drive := none, columns := none, tag := some t }

/-- Raises a source whose subject gives columns, or none. -/
def raiseColumns (s : Source) (c : Option Span) (l : Lib) : Lib :=
  l.raise { source := s, drive := none, columns := c, tag := none }

/-- Raises ACCESSOR-FAULT with its accessor and fault column (R163). -/
def raiseAccessor (x : AccId) (c : Span) (l : Lib) : Lib :=
  l.raise { source := .accessorFault, drive := none, columns := some c, tag := none, accessor := some x }

/-- Raises VOLUME-MISSING with its volume, and a column or none (R4, R163). -/
def raiseMissing (s : Serial) (c : Option Span) (l : Lib) : Lib :=
  l.raise { source := .volumeMissing, drive := none, columns := c, tag := none, volume := some s }

/-- Notes that the dispatcher is to run its choice (R95). -/
def wake (l : Lib) : Lib := { l with notes := { l.notes with wake := true } }

/-- Notes that a cell or slot has freed (R29, R39). -/
def notePlaceFreed (l : Lib) : Lib :=
  { l with notes := { l.notes with wake := true, placeFreed := true } }

/-- Notes that a request entry has freed (R65). -/
def noteEntryFreed (l : Lib) : Lib := { l with notes := { l.notes with entryFreed := true } }

/-- Notes a MANUAL drive to be offered to its waiters (R51). -/
def noteOffer (d : Nat) (l : Lib) : Lib :=
  { l with notes := { l.notes with offers := l.notes.offers ++ [d] } }

/-! ## One record -/

/-- The record carrying a serial; this lookup is the serial index (R5). -/
def vol? (l : Lib) (s : Serial) : Option Volume := l.cat.vols.find? (fun v => v.serial = s)

/-- Changes the record carrying a serial, and nothing else. -/
def updVol (s : Serial) (f : Volume → Volume) (l : Lib) : Lib :=
  { l with cat := { l.cat with vols := l.cat.vols.map fun v => if v.serial = s then f v else v } }

/-- Adds a record at its place in ascending serial order. -/
def addVol (v : Volume) (l : Lib) : Lib :=
  { l with cat := { l.cat with vols := insertBy (fun x y => x.serial.lt y.serial) v l.cat.vols } }

/-- Removes the record carrying a serial. -/
def dropVol (s : Serial) (l : Lib) : Lib :=
  { l with cat := { l.cat with vols := l.cat.vols.filter fun v => v.serial ≠ s } }

/-- The entry of a cell; a number outside the map reads as DISABLED. -/
def cell (l : Lib) (n : Nat) : Cell := l.place.cells.getD n .disabled

/-- The record of a station slot. -/
def slot (l : Lib) (k : Nat) : Slot := l.place.slots.getD k .empty

/-- A drive record. -/
def drive (l : Lib) (d : Nat) : Drive := l.drives.getD d (Drive.powerOn none)

def updDrive (d : Nat) (f : Drive → Drive) (l : Lib) : Lib :=
  { l with drives := l.drives.modify d f }

/-- The live request that bears a tag. -/
def req? (l : Lib) (t : Nat) : Option Request := l.reqs.live.find? (fun r => r.tag = t)

def updReq (t : Nat) (f : Request → Request) (l : Lib) : Lib :=
  { l with reqs := { l.reqs with live := l.reqs.live.map fun r => if r.tag = t then f r else r } }

/-- An accessor context. -/
def acc (l : Lib) : AccId → Accessor
  | .a => l.rail.accA
  | .b => l.rail.accB

def updAcc (x : AccId) (f : Accessor → Accessor) (l : Lib) : Lib :=
  match x with
  | .a => { l with rail := { l.rail with accA := f l.rail.accA } }
  | .b => { l with rail := { l.rail with accB := f l.rail.accB } }

/-- The record of an account. -/
def account? (l : Lib) (n : Nat) : Option Account := l.acct.accounts.find? (fun a => a.number = n)

def updAcct (n : Nat) (f : Account → Account) (l : Lib) : Lib :=
  { l with acct := { l.acct with accounts := l.acct.accounts.map fun a => if a.number = n then f a else a } }

/-! ## Geometry -/

/-- The image is good (R175): the mark has its value and the check word agrees. -/
def goodImage (l : Lib) : Bool := l.store.mark && l.store.checked

/-- How many columns the rail has: 48 while no definition is valid (R124). -/
def columns (l : Lib) : Nat :=
  if l.goodImage then l.store.lib.columns else Config.blankLastColumn + 1

/-- The last column. -/
def lastCol (l : Lib) : Nat := l.columns - 1

/-- The column a cell lies in (R26). -/
def cellCol (l : Lib) (n : Nat) : Nat := n / l.store.lib.perColumn

/-- The column of an AUTOMATED drive; none for any other (R44). -/
def driveCol (l : Lib) (d : Nat) : Option Nat :=
  match (l.drive d).defn with
  | some def_ =>
    match def_.kind with
    | .automated c => some c
    | .manual => none
  | none => none

/-- The column an accessor goes to for a place; a reel in the gripper is where the accessor is (R96). -/
def placeCol (l : Lib) (x : AccId) : Place → Nat
  | .cell n => l.cellCol n
  | .slot _ => l.store.lib.stationColumn
  | .drive d => (l.driveCol d).getD (l.acc x).pos
  | .gripper _ => (l.acc x).pos

/-- The defined drive is AUTOMATED. -/
def isAutomated (l : Lib) (d : Nat) : Bool := (l.driveCol d).isSome

/-- The defined drive is MANUAL. -/
def isManual (l : Lib) (d : Nat) : Bool :=
  match (l.drive d).defn with
  | some def_ => def_.kind = .manual
  | none => false

end Lib
end Machine
end Sys2Proof
end

