-- ==== Sys2Proof/Machine/Flags.lean ====
section
/-! DEFINITION. The attention causes, the linked-source set and the attention line (R170 to R172), and
the numbers of the event sources (R163). -/

namespace Sys2Proof.Machine

/-- The numbers of the sources (R163). -/
def Source.number : Source → Nat
  | .stationDoorClosed => 1
  | .serviceDoorClosed => 2
  | .cleaningRequested => 3
  | .cleaningDue => 4
  | .driveFault => 5
  | .accessorFault => 6
  | .volumeMissing => 7
  | .scratchLow => 8
  | .promptTimeout => 9
  | .queueStall => 10
  | .periodTimer => 11
  | .driveAttached => 12

/-- The attention causes by number (R171). -/
def causeRequestDone : Nat := 0
def causeMessageAnswered : Nat := 1
def causeInterlock : Nat := 2
def causeStartupComplete : Nat := 3
def causeLinkedEvent : Nat := 4

/-- Sets the flag of cause `n`; one already set stays set (R171). -/
def Lib.setCause (n : Nat) (l : Lib) : Lib :=
  { l with att := { l.att with causes := l.att.causes ||| BitVec.ofNat 8 (2 ^ n) } }

/-- Adds a source to the linked-source set, bit n - 1 for source n (R170, R173). -/
def Lib.addLinked (s : Source) (l : Lib) : Lib :=
  { l with att := { l.att with linked := l.att.linked ||| BitVec.ofNat 16 (2 ^ (s.number - 1)) } }

/-- Clears the flags and empties the set (R173, R174). -/
def Lib.clearAttention (l : Lib) : Lib := { l with att := { causes := 0, linked := 0 } }

/-- The attention line: a cause with its flag set and its mask bit clear (R172). -/
def State.attentionLine (s : State) : Bool := s.lib.att.causes &&& ~~~ s.set.mask ≠ 0

end Sys2Proof.Machine
end

