-- ==== Sys2Proof/Machine/Prompts.lean ====
section
/-! DEFINITION. The prompt unit (chapter 06): posting, presenting, answering and withdrawing prompts. -/

namespace Sys2Proof.Machine

namespace PromptKind

/-- Kind codes (R127). -/
def code : PromptKind → Nat
  | .interlock => 1
  | .accessorFault => 2
  | .driveAttention => 3
  | .manualMount => 4
  | .stationInsert => 5
  | .manualDismount => 6
  | .hostMessage => 7
  | .stationRemove => 8
  | .unknownVolume => 9
  | .volumeMissing => 10
  | .libraryFull => 11
  | .cleanerExhausted => 12
  | .scratchLow => 13
  | .queueStall => 14
  | .cleaningDue => 15
  | .periodDue => 16

/-- Urgencies (R127), 0 the most urgent. -/
def urgency : PromptKind → Nat
  | .interlock | .accessorFault => 0
  | .driveAttention | .manualMount | .stationInsert | .manualDismount => 1
  | .hostMessage | .stationRemove | .unknownVolume => 2
  | .volumeMissing | .libraryFull | .cleanerExhausted | .scratchLow | .queueStall | .cleaningDue
  | .periodDue => 3

/-- ACCEPT answers a notice of this kind (R127, R135). -/
def takesAccept : PromptKind → Bool
  | .accessorFault | .driveAttention | .hostMessage | .unknownVolume | .volumeMissing | .libraryFull
  | .cleanerExhausted | .scratchLow | .queueStall | .cleaningDue | .periodDue => true
  | .interlock | .manualMount | .stationInsert | .manualDismount | .stationRemove => false

/-- REFUSE answers a prompt of this kind (R127, R136). -/
def takesRefuse : PromptKind → Bool
  | .manualMount | .stationInsert | .hostMessage => true
  | _ => false

/-- The manual deadline runs for this kind (R138). -/
def hasManualDeadline (k : PromptKind) : Bool := k = .manualMount || k = .stationInsert

/-- Format Catalogue withdraws notices of this kind (R145). -/
def clearedByFormat : PromptKind → Bool
  | .volumeMissing | .cleanerExhausted | .unknownVolume | .libraryFull | .scratchLow | .queueStall
  | .cleaningDue | .periodDue => true
  | _ => false

/-- Two notices of this kind name the same subject (R127, R129); host messages are never merged. -/
def sameSubject (k : PromptKind) (p q : PromptSubject) : Bool :=
  match k with
  | .hostMessage => false
  | .accessorFault => p.accessor = q.accessor
  | .driveAttention | .cleaningDue => p.drive = q.drive
  | .unknownVolume => p.slot = q.slot
  | .libraryFull => p.slot = q.slot && p.accessor = q.accessor
  | .volumeMissing | .cleanerExhausted => p.volume = q.volume
  | .queueStall => p.tag = q.tag
  | .interlock | .stationRemove | .scratchLow | .periodDue => true
  | .manualMount | .stationInsert | .manualDismount => p.tag = q.tag

end PromptKind

def PromptSubject.nothing : PromptSubject :=
  { tag := none, volume := none, drive := none, cell := none, slot := none, accessor := none }

/-- POSTED, not ANSWERED (R125). -/
def Prompt.isPosted (p : Prompt) : Bool := p.answer.isNone

namespace Lib

/-- The prompts in slots 0, 1, … with their slot numbers. -/
def numbered (l : Lib) : List (Nat × Prompt) :=
  (List.range Config.promptSlots).filterMap fun k => ((l.prompts.slots.getD k none).map fun p => (k, p))

/-- Ascending urgency, then earlier posted time, then lower slot (R130). -/
def promptBefore (x y : Nat × Prompt) : Bool :=
  x.2.kind.urgency < y.2.kind.urgency
    || (x.2.kind.urgency = y.2.kind.urgency && lexLt x.2.posted.abs x.1 y.2.posted.abs y.1)

/-- The POSTED prompts in presentation order (R130). -/
def presentationOrder (l : Lib) : List (Nat × Prompt) :=
  sortBy promptBefore (l.numbered.filter fun x => x.2.isPosted)

/-- The POSTED slot that bears a posting number. -/
def posted? (l : Lib) (posting : Nat) : Option (Nat × Prompt) :=
  l.numbered.find? fun x => x.2.isPosted && x.2.posting = posting

/-- The request prompt that stands for a request; its number is the request's prompt posting (R64). -/
def requestPrompt? (l : Lib) (tag : Nat) : Option (Nat × Prompt) :=
  l.numbered.find? fun x => x.2.isPosted && x.2.isRequest && x.2.subject.tag = some tag

def setPrompt (k : Nat) (p : Option Prompt) (l : Lib) : Lib :=
  { l with prompts := { l.prompts with slots := l.prompts.slots.set k p } }

/-- Makes a POSTED prompt the presented posting and sends its PRESENT; the alert sounds when it is forced
or at the first presentation of a prompt that is not SILENT (R130, R131). The record of the last NEXT goes when
the presented posting changes (log 30). -/
def display (x : Nat × Prompt) (force : Bool) (l : Lib) : Lib :=
  let alert := force || (!x.2.announced && x.2.mode ≠ .silent)
  let p := { x.2 with announced := true }
  let shown : Present := { prompt := p, alert := alert }
  let l := (l.setPrompt x.1 (some p)).send (.present shown)
  { l with prompts := { l.prompts with
      presented := some p.posting, lastSent := some shown
      stepped := if l.prompts.presented = some p.posting then l.prompts.stepped else none } }

/-- Presents the first posting in order, or BLANK when none is POSTED (R130). -/
def presentFirst (l : Lib) : Lib :=
  match l.presentationOrder with
  | x :: _ => l.display x false
  | [] =>
    let l := l.send .blank
    { l with prompts := { l.prompts with presented := none, lastSent := none, stepped := none } }

/-- Sends the presented posting again because one of its fields has changed (R130). -/
def refresh (posting : Nat) (force : Bool) (l : Lib) : Lib :=
  if l.prompts.presented = some posting then
    match l.posted? posting with
    | some x => l.display x force
    | none => l
  else l

/-- The next posting number from `c`, passing over those in use (R126). -/
def nextPosting (inUse : List Nat) : Nat → Nat → Nat
  | 0, c => c
  | fuel + 1, c =>
    let n := if c = 65535 then 1 else c + 1
    if inUse.contains n then nextPosting inUse fuel n else n

/-- What a posting is made of, before it has its number and its time. -/
structure Draft where
  kind : PromptKind
  isRequest : Bool
  subject : PromptSubject
  detail : Nat
  text : List Byte
  mode : Announce
  /-- seconds to the deadline, when one is to run -/
  deadline : Option Nat

/-- The prompt a draft becomes, with its posting number (R126). -/
def newPrompt (g : Settings) (d : Draft) (n : Nat) : Prompt :=
  { posting := n, kind := d.kind, isRequest := d.isRequest, subject := d.subject,
    detail := d.detail, text := d.text, mode := d.mode, announced := false, posted := g.clock,
    deadline := d.deadline.map g.clock.after, deadlineLeft := d.deadline,
    reannounceLeft := if d.mode = .persistent then some g.timers.reannounce else none,
    wrongVolume := false, answer := none }

/-- The posting number the next posting takes (R126). -/
def posting (l : Lib) : Nat :=
  nextPosting (l.numbered.map fun x => x.2.posting) (Config.promptSlots + 1) l.prompts.counter

/-- Fills slot `k` with a new posting, before the panel is brought up to date (R126). -/
def fillSlot (g : Settings) (k : Nat) (d : Draft) (l : Lib) : Lib :=
  let n := l.posting
  let l := l.setPrompt k (some (newPrompt g d n))
  { l with prompts := { l.prompts with counter := n } }

/-- Fills slot `k` with a new posting, and presents it when nothing is presented or it is more urgent than
what is (R126, R130). -/
def postAt (g : Settings) (k : Nat) (d : Draft) (l : Lib) : Lib :=
  let p := newPrompt g d l.posting
  let l := l.fillSlot g k d
  match l.prompts.presented.bind l.posted? with
  | none => l.display (k, p) false
  | some shown => if d.kind.urgency < shown.2.kind.urgency then l.display (k, p) false else l

/-- The lowest-numbered FREE slot (R126). -/
def freePromptSlot (l : Lib) : Option Nat :=
  (List.range Config.promptSlots).find? fun k => (l.prompts.slots.getD k none).isNone

/-- The draft of a request prompt (R127): PERSISTENT, with the manual deadline where one runs (R138). -/
def requestDraft (g : Settings) (kind : PromptKind) (subject : PromptSubject) (detail : Nat) : Draft :=
  { kind := kind, isRequest := true, subject := subject, detail := detail, text := [],
    mode := .persistent,
    deadline := if kind.hasManualDeadline then some g.timers.manual else none }

/-- The draft of a notice (R127): ONCE, with no deadline. -/
def noticeDraft (kind : PromptKind) (subject : PromptSubject) (detail : Nat) : Draft :=
  { kind := kind, isRequest := false, subject := subject, detail := detail, text := [],
    mode := .once, deadline := none }

/-- The place of a waiting prompt: the request's priority, then the queue sequence (R140). -/
def waitBefore (l : Lib) (x y : PromptWait) : Bool :=
  let pr (w : PromptWait) := ((l.req? w.tag).map Request.priority).getD 4
  lexLt (pr x) x.qseq (pr y) y.qseq

/-- Offers a FREE slot to the request-prompt waiting list (R140). -/
def offerSlot (g : Settings) (l : Lib) : Lib :=
  match l.freePromptSlot, sortBy l.waitBefore l.prompts.waits with
  | some k, w :: _ =>
    let l := { l with prompts := { l.prompts with waits := l.prompts.waits.filter fun v => v.tag ≠ w.tag } }
    l.postAt g k (requestDraft g w.kind w.subject w.detail)
  | _, _ => l

/-- Offers FREE slots until none is left or the waiting list is empty. -/
def offerSlots (g : Settings) : Nat → Lib → Lib
  | 0, l => l
  | fuel + 1, l => if l.prompts.waits.isEmpty then l else offerSlots g fuel (l.offerSlot g)

/-- Empties a slot; when it held the presented posting, the first in order is presented (R126, R130). -/
def emptySlot (k : Nat) (l : Lib) : Lib :=
  match l.prompts.slots.getD k none with
  | none => l
  | some p =>
    let l := l.setPrompt k none
    if p.isPosted && l.prompts.presented = some p.posting then l.presentFirst else l

/-- Withdraws the prompt in a slot and offers the slot (R126, R140). -/
def withdrawSlot (g : Settings) (k : Nat) (l : Lib) : Lib :=
  match l.prompts.slots.getD k none with
  | none => l
  | some _ => (l.emptySlot k).offerSlot g

/-- Withdraws every POSTED prompt that meets a test, one at a time in ascending slots, with what each withdrawal
offers and presents (log 59). -/
def withdrawWhere (g : Settings) (test : Prompt → Bool) (l : Lib) : Lib :=
  (l.numbered.filter fun x => x.2.isPosted && test x.2).foldl (fun l x => l.withdrawSlot g x.1) l

/-- Withdraws the notices of a kind whose subject meets a test (R128). -/
def withdrawNotice (g : Settings) (kind : PromptKind) (test : PromptSubject → Bool) (l : Lib) : Lib :=
  l.withdrawWhere g fun p => p.kind = kind && !p.isRequest && test p.subject

/-- The oldest POSTED notice other than a host message (R141). -/
def oldestNotice (l : Lib) : Option (Nat × Prompt) :=
  (sortBy (fun x y => lexLt x.2.posted.abs x.1 y.2.posted.abs y.1)
    (l.numbered.filter fun x => x.2.isPosted && !x.2.isRequest && x.2.kind ≠ .hostMessage)).head?

/-- Posts a notice (R128, R129, R141): one that matches a POSTED notice, or a DRIVE-ATTENTION whose drive
has its request prompt, posts nothing; with no FREE slot the oldest notice is replaced. -/
def postNotice (g : Settings) (kind : PromptKind) (subject : PromptSubject) (detail : Nat) (l : Lib) :
    Lib :=
  if l.numbered.any (fun x => x.2.isPosted && x.2.kind = kind && kind.sameSubject x.2.subject subject) then l
  else
    match l.freePromptSlot with
    | some k => l.postAt g k (noticeDraft kind subject detail)
    | none =>
      match l.oldestNotice with
      | some x => (l.emptySlot x.1).postAt g x.1 (noticeDraft kind subject detail)
      | none => l

/-- Puts a request prompt on the waiting list, or replaces the entry its request already has there,
which keeps its place (R140). -/
def joinPromptWaits (kind : PromptKind) (tag : Nat) (subject : PromptSubject) (detail : Nat) (l : Lib) : Lib :=
  if l.prompts.waits.any (fun w => w.tag = tag) then
    { l with prompts := { l.prompts with waits := l.prompts.waits.map fun w =>
        if w.tag = tag then { w with kind := kind, subject := subject, detail := detail } else w } }
  else
    let n := satAdd max32 l.reqs.queueSeq 1
    let w : PromptWait := { tag := tag, kind := kind, subject := subject, detail := detail, qseq := n }
    { l with reqs := { l.reqs with queueSeq := n },
             prompts := { l.prompts with waits := l.prompts.waits ++ [w] } }

/-- Takes a request off the request-prompt waiting list (R140). -/
def dropWait (tag : Nat) (l : Lib) : Lib :=
  { l with prompts := { l.prompts with waits := l.prompts.waits.filter fun w => w.tag ≠ tag } }

/-- Withdraws a request's prompt and takes the request off the waiting list (R89, R129). -/
def clearRequestPrompt (g : Settings) (tag : Nat) (l : Lib) : Lib :=
  (l.dropWait tag).withdrawWhere g fun p => p.isRequest && p.subject.tag = some tag

/-- Posts a request prompt (R126, R129, R140). One the request already has is withdrawn first. A
DRIVE-ATTENTION takes the slot of the notice for its drive, or else, with no FREE slot, of the oldest
notice. With no slot to be had the request joins the waiting list. -/
def postRequest (g : Settings) (kind : PromptKind) (tag : Nat) (subject : PromptSubject) (detail : Nat)
    (l : Lib) : Lib :=
  let subject := { subject with tag := some tag }
  let l := l.withdrawWhere g fun p => p.isRequest && p.subject.tag = some tag
  let draft := requestDraft g kind subject detail
  let attention := kind = .driveAttention
  match (if attention then
      l.numbered.find? (fun x => x.2.isPosted && !x.2.isRequest && x.2.kind = .driveAttention
        && x.2.subject.drive = subject.drive)
    else none) with
  | some x => ((l.dropWait tag).emptySlot x.1).postAt g x.1 draft
  | none =>
    match l.freePromptSlot with
    | some k => (l.dropWait tag).postAt g k draft
    | none =>
      match (if attention then l.oldestNotice else none) with
      | some x => ((l.dropWait tag).emptySlot x.1).postAt g x.1 draft
      | none => l.joinPromptWaits kind tag subject detail

/-- Makes a HOST-MESSAGE ANSWERED (R139). -/
def answerMessage (x : Nat × Prompt) (answer : Answer) (l : Lib) : Lib :=
  let p := { x.2 with answer := some answer, deadline := none, deadlineLeft := none, reannounceLeft := none }
  let l := (l.setPrompt x.1 (some p)).setCause causeMessageAnswered
  if l.prompts.presented = some p.posting then l.presentFirst else l

/-- Sets or clears the wrong-volume mark of a request's MANUAL-MOUNT (R54, R59, R130, R131). -/
def markWrongVolume (tag : Nat) (wrong : Bool) (l : Lib) : Lib :=
  match l.requestPrompt? tag with
  | some x =>
    if x.2.kind = .manualMount && x.2.wrongVolume ≠ wrong then
      (l.setPrompt x.1 (some { x.2 with wrongVolume := wrong })).refresh x.2.posting wrong
    else l
  | none => l

/-- Gives a converted request's prompt, waiting-list entry and QUEUE-STALL notice its new tag (R145). -/
def retagPrompts (old new : Nat) (l : Lib) : Lib :=
  let retag (p : Prompt) : Prompt :=
    if p.subject.tag = some old then { p with subject := { p.subject with tag := some new } } else p
  let waits := l.prompts.waits.map fun w =>
    if w.tag = old then { w with tag := new, subject := { w.subject with tag := some new } } else w
  { l with prompts := { l.prompts with slots := l.prompts.slots.map (Option.map retag), waits := waits } }

end Lib
end Sys2Proof.Machine
end

