-- ==== Sys2Proof/Machine/PlaceOps.lean ====
section
/-! DEFINITION. The shared operations of the catalogue and the place unit: the scratch list, a volume's
changes, the cells, the station slots, and a volume that is declared MISSING. -/

namespace Sys2Proof.Machine

/-- Reject reason codes (R37). -/
def Reject.code : Reject → Nat
  | .unreadable => 1
  | .unknownLabel => 2
  | .catalogueFull => 3
  | .notShelf => 4
  | .volumeInUse => 5
  | .libraryFull => 6

/-- The volume belongs on the scratch list: SCRATCH, HOME, no holder (R6, R7). -/
def Volume.onScratch (v : Volume) : Bool := v.cls = .scratch && v.state = .home && v.holder.isNone

/-- A span of one column. -/
def Span.point (c : Nat) : Span := { lo := c, hi := c }

namespace Lib

/-! ## The scratch list -/

/-- Sets or clears the scratch-low condition, with the raising when it is set (R9). -/
def judgeLow (g : Settings) (l : Lib) : Lib :=
  if l.cat.scratch.length < g.timers.threshold then
    if l.cat.low then l
    else { l with cat := { l.cat with low := true } }.raisePlain .scratchLow
  else { l with cat := { l.cat with low := false } }

/-- Evaluates the scratch-low condition (R9); its notice is withdrawn when it clears (R128). -/
def evalLow (g : Settings) (l : Lib) : Lib :=
  let l := l.judgeLow g
  if l.cat.scratch.length < g.timers.threshold then l else l.withdrawNotice g .scratchLow fun _ => true

/-- The scratch list with one record joined at its tail, or taken out, as R7 requires. -/
def scratchAfter (l : Lib) (s : Serial) : List Serial :=
  match l.vol? s with
  | some v =>
    if v.onScratch then
      if l.cat.scratch.contains s then l.cat.scratch else l.cat.scratch ++ [s]
    else l.cat.scratch.filter (· ≠ s)
  | none => l.cat.scratch.filter (· ≠ s)

/-- Brings the scratch list up to date for one record, without the evaluation of R9. -/
def placeOnScratch (s : Serial) (l : Lib) : Lib :=
  { l with cat := { l.cat with scratch := l.scratchAfter s } }

/-- Brings the scratch list up to date for one record; a change of the count is evaluated (R9). -/
def syncScratch (g : Settings) (s : Serial) (l : Lib) : Lib :=
  let l' := l.placeOnScratch s
  if l'.cat.scratch.length = l.cat.scratch.length then l' else l'.evalLow g

/-- Brings the scratch list up to date for every record, in ascending serial order (R6, R7). -/
def placeAllOnScratch (l : Lib) : Lib :=
  (l.cat.vols.map Volume.serial).foldl (fun l s => l.placeOnScratch s) l

/-- Brings the scratch list up to date for every record; a change of the count is judged, once after all have
joined (R9, R24). The SCRATCH-LOW notice is the caller's to withdraw. -/
def syncAllScratch (g : Settings) (l : Lib) : Lib :=
  let l' := l.placeAllOnScratch
  if l'.cat.scratch.length = l.cat.scratch.length then l' else l'.judgeLow g

/-- Puts the records that have joined the list since it was `was` in ascending serial order (R7). -/
def orderJoined (was : List Serial) (l : Lib) : Lib :=
  let joined := sortBy Serial.lt (l.cat.scratch.filter fun s => !was.contains s)
  { l with cat := { l.cat with scratch := l.cat.scratch.filter was.contains ++ joined } }

/-! ## Volumes -/

/-- Changes a volume record, with what follows in the same step: its membership of the scratch list (R7)
and the end of its VOLUME-MISSING notice (R128). -/
def changeVol (g : Settings) (s : Serial) (f : Volume → Volume) (l : Lib) : Lib :=
  let wasMissing := ((l.vol? s).map fun v => decide (v.state = .missing)).getD false
  let l := (l.updVol s f).syncScratch g s
  if wasMissing && !((l.vol? s).map fun v => decide (v.state = .missing)).getD false then
    l.withdrawNotice g .volumeMissing fun p => p.volume = some s
  else l

/-- The volume takes a new state (R4). -/
def moveVol (g : Settings) (s : Serial) (st : VolState) (l : Lib) : Lib :=
  l.changeVol g s fun v => { v with state := st }

/-- The volume recorded ON-DRIVE at a drive. -/
def volOnDrive? (l : Lib) (d : Nat) : Option Volume := l.cat.vols.find? fun v => v.state = .onDrive d

/-- The volume recorded IN-TRANSIT on an accessor. -/
def volInTransit? (l : Lib) (x : AccId) : Option Volume :=
  l.cat.vols.find? fun v => v.state = .inTransit x

/-! ## Cells -/

/-- Changes a cell; one that becomes EMPTY without a mark has freed (R29). -/
def setCell (n : Nat) (c : Cell) (l : Lib) : Lib :=
  let freed := c = .empty none && l.cell n ≠ .empty none
  let l := { l with place := { l.place with cells := l.place.cells.set n c } }
  if freed then l.notePlaceFreed else l

/-- Free-cell choice: the lowest EMPTY cell without a mark (R30). -/
def freeCell? (l : Lib) : Option Nat := l.place.cells.findIdx? (· = .empty none)

/-- Makes a cell the home of a volume that is away: AWAITED naming it (R28, R30). -/
def reserveHome (g : Settings) (s : Serial) (n : Nat) (l : Lib) : Lib :=
  (l.setCell n (.awaited s)).changeVol g s fun v => { v with homeCell := some n }

/-- Clears a volume's home cell; the cell that named it becomes `c` (R4, R28). -/
def clearHome (g : Settings) (s : Serial) (c : Cell) (l : Lib) : Lib :=
  match (l.vol? s).bind Volume.homeCell with
  | some n => (l.setCell n c).changeVol g s fun v => { v with homeCell := none }
  | none => l

/-- Removes every reservation mark that names a RETURN; its cell has freed (R30). -/
def clearMarks (tag : Nat) (l : Lib) : Lib :=
  (List.range l.place.cells.length).foldl
    (fun l n => if l.cell n = .empty (some tag) then l.setCell n (.empty none) else l) l

/-! ## Station slots -/

/-- OUTBOUND or REJECTED: a slot the operator is to empty (R40). -/
def slotToEmpty : Slot → Bool
  | .outbound _ | .rejected _ _ => true
  | _ => false

def slotRejected : Slot → Bool
  | .rejected _ _ => true
  | _ => false

/-- Brings the STATION-REMOVE notice up to date (R40). -/
def updateRemove (g : Settings) (l : Lib) : Lib :=
  if l.place.slots.any slotToEmpty then l.postNotice g .stationRemove .nothing 0
  else l.withdrawNotice g .stationRemove fun _ => true

/-- Changes a slot: one that becomes EMPTY has freed (R39); one that leaves REJECTED loses its notice
(R38, R41). -/
def changeSlot (g : Settings) (k : Nat) (s : Slot) (l : Lib) : Lib :=
  let old := l.slot k
  let l := { l with place := { l.place with slots := l.place.slots.set k s } }
  let l := if s = .empty && old ≠ .empty then l.notePlaceFreed else l
  if slotRejected old && !slotRejected s then
    (l.withdrawNotice g .unknownVolume fun p => p.slot = some k).withdrawNotice g .libraryFull
      fun p => p.slot = some k
  else l

/-- Changes a slot, and brings STATION-REMOVE up to date (R40). -/
def setSlot (g : Settings) (k : Nat) (s : Slot) (l : Lib) : Lib := (l.changeSlot g k s).updateRemove g

/-- The lowest-numbered EMPTY slot (R39). -/
def freeSlot? (l : Lib) : Option Nat := l.place.slots.findIdx? (· = .empty)

/-- Posts the notice of a REJECTED slot (R41). -/
def postRejected (g : Settings) (k : Nat) (label : Option Serial) (why : Reject) (l : Lib) : Lib :=
  l.postNotice g (if why = .libraryFull then .libraryFull else .unknownVolume)
    { PromptSubject.nothing with slot := some k, volume := label } why.code

/-- Rejects a slot: its notice is posted, and then STATION-REMOVE is brought up to date (R37's last sentence,
R40, R41). -/
def rejectSlot (g : Settings) (k : Nat) (label : Option Serial) (why : Reject) (l : Lib) : Lib :=
  ((l.changeSlot g k (.rejected label why)).postRejected g k label why).updateRemove g

/-- The slot claimed by a request for taking in (direction PICK). -/
def pickSlot? (l : Lib) (tag : Nat) : Option Nat :=
  l.place.slots.findIdx? fun s => match s with
    | .pick _ t => t = tag
    | _ => false

/-- The slot claimed by a request as its destination (direction PLACE). -/
def placeSlot? (l : Lib) (tag : Nat) : Option Nat := l.place.slots.findIdx? (· = .place tag)

/-- Releases the destination slot a request has claimed (R38, R99). -/
def freePlaceSlot (g : Settings) (tag : Nat) (l : Lib) : Lib :=
  match l.placeSlot? tag with
  | some k => l.setSlot g k .empty
  | none => l

/-- Releases the destination slot a request has claimed, with STATION-REMOVE left as it is (R140). -/
def emptyPlaceSlot (g : Settings) (tag : Nat) (l : Lib) : Lib :=
  match l.placeSlot? tag with
  | some k => l.changeSlot g k .empty
  | none => l

/-- How many slots are EMPTY. -/
def emptySlots (l : Lib) : Nat := (l.place.slots.filter (· = .empty)).length

/-! ## MISSING -/

/-- Declares a volume MISSING (R4): its home cell, when it has one, becomes `cellTo`; VOLUME-MISSING is
raised with its column and its notice posted (R128). A record already MISSING raises nothing. -/
def declareMissing (g : Settings) (s : Serial) (cellTo : Cell) (l : Lib) : Lib :=
  match l.vol? s with
  | none => l
  | some v =>
    if v.state = .missing then l
    else
      let column :=
        match v.homeCell with
        | some n => some (l.cellCol n)
        | none =>
          match v.state with
          | .onDrive d => l.driveCol d
          | .inTransit x => some (l.acc x).pos
          | _ => none
      let l := (l.clearHome g s cellTo).moveVol g s .missing
      (l.raiseMissing s (column.map Span.point)).postNotice g .volumeMissing
        { PromptSubject.nothing with volume := some s, cell := v.homeCell } 0

end Lib
end Sys2Proof.Machine
end

