-- ==== Sys2Proof/Machine/Accounting.lean ====
section
/-! DEFINITION. The accounting unit's counts and accruals (R152 to R157). -/

namespace Sys2Proof.Machine

/-- The states that count in the held count (R154). -/
def ReqState.inHeldSet : ReqState → Bool
  | .fetching | .threading | .mounted | .rewinding | .returnReady | .returning => true
  | _ => false

/-- The states that count in the queued count (R154). -/
def ReqState.inQueuedSet : ReqState → Bool
  | .held | .queued | .manual => true
  | _ => false

/-- A mount of either kind. -/
def Request.isMount (r : Request) : Bool := r.kind = .mount || r.kind = .mountScratch

/-- The request may still reach MOUNTED (R152). -/
def Request.mayMount (r : Request) : Bool :=
  r.isMount && r.code.isNone
    && (r.state.inQueuedSet || r.state = .fetching || r.state = .threading)

/-- An addition to a period total: past its maximum it stays there and sets the overflow flag (R157). -/
def addTotal (max total n : Nat) (overflow : Bool) : Nat × Bool :=
  if total + n ≤ max then (total + n, overflow) else (max, true)

/-- Each accrual moves the stamp on by 1; it wraps (R156, R157). -/
def Account.stamped (a : Account) : Account := { a with stamp := (a.stamp + 1) % 65536 }

def Account.addMount (a : Account) : Account :=
  let t := addTotal max16 a.mounts 1 a.overflow
  { a with mounts := t.1, overflow := t.2 }

def Account.addScratchMount (a : Account) : Account :=
  let t := addTotal max16 a.scratchMounts 1 a.overflow
  { a with scratchMounts := t.1, overflow := t.2 }

def Account.addSeconds (n : Nat) (a : Account) : Account :=
  let t := addTotal max32 a.driveSeconds n a.overflow
  { a with driveSeconds := t.1, overflow := t.2 }

def Account.addManual (a : Account) : Account :=
  let t := addTotal max16 a.manual 1 a.overflow
  { a with manual := t.1, overflow := t.2 }

def Account.addRefusal (a : Account) : Account :=
  let t := addTotal max16 a.refusals 1 a.overflow
  { a with refusals := t.1, overflow := t.2 }

namespace Lib

/-- The account's held count (R154). -/
def heldCount (l : Lib) (n : Nat) : Nat :=
  (l.reqs.live.filter fun r => r.account = some n && r.state.inHeldSet).length

/-- The account's queued count (R154). -/
def queuedCount (l : Lib) (n : Nat) : Nat :=
  (l.reqs.live.filter fun r => r.account = some n && r.isMount && r.state.inQueuedSet).length

/-- The account's owned count (R155). -/
def ownedCount (l : Lib) (n : Nat) : Nat :=
  (l.cat.vols.filter fun v => match v.cls with
    | .priv owner _ => owner = n
    | _ => false).length

/-- The account's requests that may still reach MOUNTED (R152). -/
def mayMountCount (l : Lib) (n : Nat) : Nat :=
  (l.reqs.live.filter fun r => r.account = some n && r.mayMount).length

/-- The account's requests in MOUNTED (R158). -/
def mountedOf (l : Lib) (n : Nat) : List Request :=
  l.reqs.live.filter fun r => r.account = some n && r.state = .mounted

/-- The account is under its quota (R152). -/
def underQuota (l : Lib) (a : Account) : Bool :=
  match a.quota with
  | none => true
  | some q => a.mounts + l.mayMountCount a.number < q

/-- The account passes the dispatch gate of a fetch (R153). -/
def passesDriveLimit (l : Lib) (n : Nat) : Bool :=
  match l.account? n with
  | some a => !a.suspended && l.heldCount n < a.limit
  | none => false

/-- Makes an accrual to an account, when there is one (R156). -/
def accrue (account : Option Nat) (f : Account → Account) (l : Lib) : Lib :=
  match account with
  | some n => l.updAcct n fun a => (f a).stamped
  | none => l

end Lib
end Sys2Proof.Machine
end

