-- ==== Sys2Proof/Machine/DriveOps.lean ====
section
/-! DEFINITION. The shared operations of the drive table: eligibility, drive choice, reservation, and the
entries to IDLE, REWINDING and FAULTED. -/

namespace Sys2Proof.Machine

namespace Lib

/-! ## Eligibility (R50) -/

/-- The path is enabled in the channel-path enable set (R49). -/
def pathEnabled (g : Settings) (p : Nat) : Bool := g.paths.getD p false

/-- The drive could take any ordinary mount: defined, confirmed, IDLE, flags clear (R50). -/
def driveReady (l : Lib) (d : Nat) : Bool :=
  let v := l.drive d
  match v.defn with
  | some def_ => def_.confirmed && v.state = .idle && !v.cleanDue && !v.offPending
  | none => false

/-- The definition has the request's path and density (R50). -/
def defFits (def_ : DriveDef) (r : Request) : Bool :=
  (match r.path with
    | some p => def_.paths.contains p
    | none => false)
  && (match r.density with
    | some c => def_.densities.contains c
    | none => false)

/-- The drive is eligible for the request (R50); `manual` says which kind suits the volume. -/
def eligible (g : Settings) (l : Lib) (r : Request) (manual : Bool) (d : Nat) : Bool :=
  match (l.drive d).defn with
  | some def_ =>
    l.driveReady d && defFits def_ r && ((r.path.map (pathEnabled g)).getD false)
      && ((def_.kind = .manual) == manual)
  | none => false

/-- The mounts the drive is eligible for as it stands (R50): whether MANUAL, with a path and a density. -/
def mountsFor (g : Settings) (l : Lib) (d : Nat) : List (Bool × Nat × Nat) :=
  match (l.drive d).defn with
  | some def_ =>
    if l.driveReady d then
      (def_.paths.filter (pathEnabled g)).flatMap fun p => def_.densities.map fun c => (l.isManual d, p, c)
    else []
  | none => []

/-- The drive is eligible for some mount for which it was not in `was` (R45, R46). -/
def newlyEligible (g : Settings) (l was : Lib) (d : Nat) : Bool :=
  (l.mountsFor g d).any fun m => !(was.mountsFor g d).contains m

/-- Some defined drive of a suiting kind has the request's path and density (R50, the weaker question). -/
def couldServe (l : Lib) (r : Request) (manualToo : Bool) : Bool :=
  l.drives.any fun v => match v.defn with
    | some def_ => defFits def_ r && (manualToo || def_.kind ≠ .manual)
    | none => false

/-- The earlier idle-since; a drive without one comes last (R51). -/
def idleKey (l : Lib) (d : Nat) : Nat := ((l.drive d).idleSince.map Clock.abs).getD Clock.cycle

/-- Drives in the order of choice (R51): the earliest idle-since, then the lower number. -/
def byIdle (l : Lib) (ds : List Nat) : List Nat :=
  sortBy (fun a b => lexLt (l.idleKey a) a (l.idleKey b) b) ds

/-- Drive choice (R51). -/
def chooseDrive (l : Lib) (ds : List Nat) : Option Nat := (l.byIdle ds).head?

/-- The drives 0 to 15 that pass a test. -/
def drivesWhere (test : Nat → Bool) : List Nat := (List.range Config.drives).filter test

/-! ## Reservation and IDLE -/

/-- Reserves a drive for a request (R51). -/
def reserveDrive (d tag : Nat) (cause : Cause) (l : Lib) : Lib :=
  l.updDrive d fun v => { v with state := .reserved cause, serving := some tag }

/-- A drive freed (R51): a MANUAL drive is offered to its waiters; the dispatcher is told of any other. -/
def driveFreed (d : Nat) (l : Lib) : Lib := if l.isManual d then l.noteOffer d else l.wake

/-- Releases a reservation (R51): back to IDLE with its idle-since, or OFFLINE with offline-pending. -/
def releaseDrive (d : Nat) (l : Lib) : Lib :=
  if (l.drive d).offPending then
    l.updDrive d fun v => { v with state := .offline, serving := none, offPending := false }
  else (l.updDrive d fun v => { v with state := .idle, serving := none }).driveFreed d

/-- A drive is empty and IDLE, with idle-since now (R51, R60, R181). Vary Drive on of an OFFLINE drive that still
has a reel clears the reel field too (log 46). -/
def becomeIdle (g : Settings) (d : Nat) (l : Lib) : Lib :=
  (l.updDrive d fun v =>
    { v with state := .idle, serving := none, reel := .none, idleSince := some g.clock }).driveFreed d

/-- A drive empty and free again (R51, R53, R59): IDLE with idle-since now, or OFFLINE with
offline-pending. -/
def enterIdle (g : Settings) (d : Nat) (l : Lib) : Lib :=
  if (l.drive d).offPending then
    l.updDrive d fun v =>
      { v with state := .offline, serving := none, reel := .none, offPending := false }
  else l.becomeIdle g d

/-- The drive is RESERVED. -/
def isReserved (l : Lib) (d : Nat) : Bool :=
  match (l.drive d).state with
  | .reserved _ => true
  | _ => false

/-- The drives whose serving request is `tag`. -/
def servingDrives (l : Lib) (tag : Nat) : List Nat := drivesWhere fun d => (l.drive d).serving = some tag

/-- A request no longer needs its drives (R51, R59, R89): a reservation is released, and a drive that holds
a reel goes on with no serving request. -/
def leaveDrives (tag : Nat) (l : Lib) : Lib :=
  (l.servingDrives tag).foldl
    (fun l d => if l.isReserved d then l.releaseDrive d else l.updDrive d fun v => { v with serving := none }) l

/-! ## Leaving MOUNTED, REWINDING, FAULTED -/

/-- When the drive leaves MOUNTED, its mounted seconds rise by now minus mounted-since (R56). After a Set Clock that
has put the clock back behind mounted-since that is counted forward through the wrap of the clock (log 64). -/
def closeMounted (g : Settings) (d : Nat) (l : Lib) : Lib :=
  match (l.drive d).state with
  | .mounted since =>
    l.updDrive d fun v => { v with defn := v.defn.map fun def_ =>
      { def_ with lifeSeconds := satAdd max32 def_.lifeSeconds (since.elapsed g.clock) } }
  | _ => l

/-- Puts a drive into REWINDING with its unload limit started (R57). -/
def enterRewinding (g : Settings) (d : Nat) (l : Lib) : Lib :=
  (l.closeMounted g d).updDrive d fun v =>
    { v with state := .rewinding, threadLeft := none, unloadLeft := some g.timers.unload }

/-- Sends UNLOAD and puts the drive into REWINDING (R56). -/
def orderUnload (g : Settings) (d : Nat) (l : Lib) : Lib := (l.send (.unload d)).enterRewinding g d

/-- Every entry to FAULTED: the fault code, the timers stopped, DRIVE-FAULT raised (R55 to R58). -/
def enterFaulted (g : Settings) (d code : Nat) (l : Lib) : Lib :=
  ((l.closeMounted g d).updDrive d fun v =>
    { v with state := .faulted, fault := code, threadLeft := none, unloadLeft := none }).raiseDrive
      .driveFault d

/-- The subject of a DRIVE-ATTENTION request prompt: the drive, and the volume it holds (R127). -/
def attentionSubject (l : Lib) (d : Nat) : PromptSubject :=
  { PromptSubject.nothing with
    drive := some d
    volume := match (l.drive d).reel with
      | .recorded s => some s
      | _ => none }

/-- Posts a DRIVE-ATTENTION: a request prompt when a live request waits on the drive, else a notice, which names the
drive alone (R53, R57, R127, R129). -/
def postAttention (g : Settings) (d : Nat) (waiting : Option Nat) (l : Lib) : Lib :=
  match waiting with
  | some t => l.postRequest g PromptKind.driveAttention t (l.attentionSubject d) (l.drive d).fault
  | none =>
    l.postNotice g PromptKind.driveAttention { PromptSubject.nothing with drive := some d } (l.drive d).fault

/-- Withdraws the drive's DRIVE-ATTENTION at its exit from FAULTED (R58, R140). -/
def clearAttentionPrompt (g : Settings) (d : Nat) (l : Lib) : Lib :=
  let l := { l with prompts := { l.prompts with
    waits := l.prompts.waits.filter fun w => w.kind ≠ PromptKind.driveAttention || w.subject.drive ≠ some d } }
  l.withdrawWhere g fun p => p.kind = PromptKind.driveAttention && p.subject.drive = some d

/-! ## Cleaning -/

/-- Sets cleaning-due when mounts since cleaning has reached the threshold, and raises CLEANING-DUE (R61). -/
def checkCleaning (d : Nat) (l : Lib) : Lib :=
  match (l.drive d).defn with
  | some def_ =>
    if def_.threshold ≤ def_.sinceClean && !(l.drive d).cleanDue then
      (l.updDrive d fun v => { v with cleanDue := true }).raiseDrive .cleaningDue d
    else l
  | none => l

/-- Clears cleaning-due and the count, and withdraws the CLEANING-DUE notice (R45, R62, R128). -/
def cleaned (g : Settings) (d : Nat) (l : Lib) : Lib :=
  (l.updDrive d fun v =>
    { v with cleanDue := false, defn := v.defn.map fun def_ => { def_ with sinceClean := 0 } }).withdrawNotice
      g .cleaningDue fun p => p.drive = some d

end Lib
end Sys2Proof.Machine
end

