-- ==== Sys2Proof/Machine/RequestOps.lean ====
section
/-! DEFINITION. The shared operations of the request table: states and queue sequences, holds, completion,
creation of internal requests, the shelf routes, and the ends of a request's stay at a drive. -/

namespace Sys2Proof.Machine

/-- The state stands in a priority list (R66, R94). -/
def ReqState.inList : ReqState → Bool
  | .queued | .returnReady => true
  | _ => false

/-- The states over which a request keeps its queue sequence: in a list, or staged or current and so able
to return to it (R94). -/
def ReqState.keepsQueue : ReqState → Bool
  | .queued | .returnReady | .fetching | .moving | .returning => true
  | _ => false

/-- The serial of the volume a request carries. -/
def Request.serial? (r : Request) : Option Serial :=
  match r.cargo with
  | .volume s => some s
  | _ => none

/-- The level of a request in the lists, and of a staged one (R94, R100). -/
def Request.level (r : Request) : Nat :=
  if r.state = .returnReady || r.state = .returning then 0 else r.priority

/-- The internal tag after `n` (R65). -/
def nextInternal (n : Nat) : Nat := if n < 65535 then n + 1 else 32768

/-- The first tag at or after `n` that is not in use (R65). -/
def pickTag (used : List Nat) : Nat → Nat → Nat
  | 0, n => n
  | fuel + 1, n => if used.contains n then pickTag used fuel (nextInternal n) else n

namespace Lib

/-! ## States and queue sequences -/

/-- Changes a request's state. Entry to a list starts the queue-stall timer, with its length as it then stands
(log 42), and tells the dispatcher (R91, R95); leaving the lists withdraws a QUEUE-STALL notice (R128); a fall of a
held count tells the dispatcher (R153). -/
def setReqState (g : Settings) (t : Nat) (st : ReqState) (l : Lib) : Lib :=
  match l.req? t with
  | none => l
  | some r =>
    let l := l.updReq t fun q =>
      { q with state := st, stallLeft := if st.inList then some g.timers.stall else none,
               qseq := if st.keepsQueue then q.qseq else none }
    let l :=
      if r.state.inList && !st.inList then l.withdrawNotice g .queueStall fun p => p.tag = some t else l
    if st.inList || (r.state.inHeldSet && !st.inHeldSet) then l.wake else l

/-- A request takes a new queue sequence (R94). -/
def takeQueue (t : Nat) (l : Lib) : Lib :=
  let n := satAdd max32 l.reqs.queueSeq 1
  { l with reqs := { l.reqs with queueSeq := n } }.updReq t fun r => { r with qseq := some n }

/-- A request enters QUEUED (R66). -/
def enterQueued (g : Settings) (t : Nat) (l : Lib) : Lib := (l.takeQueue t).setReqState g t .queued

/-- A request enters RETURN-READY with its source (R66, R76). -/
def enterReturnReady (g : Settings) (t : Nat) (source : Place) (l : Lib) : Lib :=
  ((l.updReq t fun r => { r with source := some source }).takeQueue t).setReqState g t .returnReady

/-- A request has lost its drive: its drive field goes, but for a CLEAN, whose field comes from its command
(R64; of a mount log 41). -/
def dropDrive (t : Nat) (l : Lib) : Lib :=
  l.updReq t fun r => { r with drive := if r.kind = .clean then r.drive else none }

/-- Fixes a completion code; the first one fixed stands (R88). -/
def fixCode (t : Nat) (c : Code) (l : Lib) : Lib :=
  l.updReq t fun r => { r with code := some (r.code.getD c) }

/-! ## Holds -/

/-- Takes the hold on a volume that has no holder (R10). -/
def takeHold (g : Settings) (s : Serial) (t : Nat) (l : Lib) : Lib :=
  l.changeVol g s fun v => { v with holder := some (v.holder.getD t) }

/-- Releases the hold of a request on its volume (R11). -/
def releaseHold (g : Settings) (t : Nat) (l : Lib) : Lib :=
  match (l.req? t).bind Request.serial? with
  | some s =>
    if (l.vol? s).bind Volume.holder = some t then l.changeVol g s fun v => { v with holder := none } else l
  | none => l

/-! ## Completion and freeing -/

/-- Removes a request's entry; it is offered later in the step (R65). -/
def freeEntry (t : Nat) (l : Lib) : Lib :=
  { l with reqs := { l.reqs with live := l.reqs.live.filter fun r => r.tag ≠ t } }.noteEntryFreed

/-- A request reaches DONE (R89) with code `c`, or the code fixed earlier. -/
def complete (g : Settings) (t : Nat) (c : Code) (l : Lib) : Lib :=
  match l.req? t with
  | none => l
  | some r =>
    if r.state = .done then l
    else
      let code := r.code.getD c
      let l := (((l.leaveDrives t).freePlaceSlot g t).clearMarks t).clearRequestPrompt g t
      let l := (l.fixCode t c).setReqState g t .done
      let l := if code = .operatorRefused then l.accrue r.account Account.addRefusal else l
      let l := l.releaseHold g t
      match r.origin with
      | .link => l.setCause causeRequestDone
      | .internal => l.freeEntry t

/-! ## Admission -/

/-- The host's share of the table is taken, or no entry is free (R65). -/
def hostFull (l : Lib) : Bool :=
  Config.requestEntries ≤ l.reqs.live.length
    || Config.hostEntries ≤ (l.reqs.live.filter fun r => r.origin = .link).length

/-- A free entry for an internal request (R65). -/
def entryFree (l : Lib) : Bool := l.reqs.live.length < Config.requestEntries

/-- A new request before the fields of its kind are filled in. -/
def freshRequest (g : Settings) (tag : Nat) (origin : Origin) (kind : Kind) (cargo : Cargo)
    (priority arrival : Nat) : Request :=
  { tag := tag, origin := origin, kind := kind, cargo := cargo, drive := none, path := none,
    density := none, account := none, priority := priority, access := none, manualAllowed := none,
    route := none, expiryDays := none, state := .held, arrival := arrival, qseq := none,
    arrived := g.clock, mountedAt := none, accruedFrom := none, source := none, cursor := none,
    bySpan := false, cancelPending := false, code := none, stallLeft := none }

/-- Fills an entry: the arrival sequence is taken, and the volume, if any, is held (R64, R67). -/
def admitReq (g : Settings) (tag : Nat) (origin : Origin) (kind : Kind) (cargo : Cargo) (priority : Nat)
    (fill : Request → Request) (l : Lib) : Lib :=
  let n := satAdd max32 l.reqs.arrivals 1
  let r := fill (freshRequest g tag origin kind cargo priority n)
  let l := { l with reqs := { l.reqs with live := l.reqs.live ++ [r], arrivals := n } }
  match cargo with
  | .volume s => l.takeHold g s tag
  | _ => l

/-- The tag the next internal request takes (R65). -/
def newTag (l : Lib) : Nat :=
  pickTag (l.reqs.live.map Request.tag) (Config.requestEntries + 1) l.reqs.nextTag

/-- Moves the rotation past a tag that was taken (R65). -/
def rotate (t : Nat) (l : Lib) : Lib := { l with reqs := { l.reqs with nextTag := nextInternal t } }

/-- Creates an internal request; the caller has seen that an entry is free (R65). -/
def createInternal (g : Settings) (kind : Kind) (cargo : Cargo) (priority : Nat)
    (fill : Request → Request) (l : Lib) : Nat × Lib :=
  let t := l.newTag
  (t, (l.admitReq g t .internal kind cargo priority fill).rotate t)

/-- Creates a RETURN in RETURN-READY (R87). -/
def createReturn (g : Settings) (cargo : Cargo) (source : Place) (l : Lib) : Nat × Lib :=
  let x := l.createInternal g .ret cargo 0 id
  (x.1, x.2.enterReturnReady g x.1 source)

/-- Creates an AUDIT over a range of columns, in QUEUED at level 1 (R169, R184). -/
def createAudit (g : Settings) (columns : Span) (bySpan : Bool) (l : Lib) : Nat × Lib :=
  let x := l.createInternal g .audit .none 1 fun r =>
    { r with cursor := some { next := columns.lo, first := columns.lo, last := columns.hi }, bySpan := bySpan }
  (x.1, x.2.enterQueued g x.1)

/-- The cleaner R13 chooses: the lowest serial with uses left, HOME, no holder. -/
def chooseCleaner (l : Lib) : Option Volume :=
  l.cat.vols.find? fun v => v.state = .home && v.holder.isNone && (match v.cls with
    | .cleaner uses => 0 < uses
    | _ => false)

/-- A live CLEAN, not yet DONE or DONE and not released, names the drive (R85). -/
def cleanNames (l : Lib) (d : Nat) : Bool :=
  l.reqs.live.any fun r => r.kind = .clean && r.drive = some d

/-- The source of a volume that is HOME: its home cell. -/
def homeSource (v : Volume) : Option Place := v.homeCell.map Place.cell

/-- Creates the internal CLEAN of QUEUE-CLEAN, or nothing (R168). -/
def queueClean (g : Settings) (d : Nat) (l : Lib) : Lib :=
  if l.isAutomated d && !l.cleanNames d && l.entryFree then
    match l.chooseCleaner with
    | some v =>
      let x := l.createInternal g .clean (.volume v.serial) 1 fun r =>
        { r with drive := some d, source := homeSource v }
      x.2.enterQueued g x.1
    | none => l
  else l

/-! ## Imports and the hand-over -/

/-- Makes the IMPORT of a volume in a slot, with its home cell reserved at `c` when it has none (R37, R84). -/
def startImport (g : Settings) (k : Nat) (label : Option Serial) (s : Serial) (c : Option Nat) (l : Lib) :
    Lib :=
  let l := l.moveVol g s (.station k)
  let l := match c with
    | some n => l.reserveHome g s n
    | none => l
  let x := l.createInternal g .imp (.volume s) 2 fun r => { r with source := some (.slot k) }
  (x.2.setSlot g k (.pick label x.1)).enterQueued g x.1

/-- The reel of a claimed slot passes to a new IMPORT (R12, R38); the old claim's hold has gone. With neither a
cell nor an entry free, the slot is rejected (log 38). -/
def handOver (g : Settings) (k : Nat) (s : Serial) (l : Lib) : Lib :=
  match l.freeCell? with
  | none => (l.moveVol g s .shelf).rejectSlot g k (some s) .libraryFull
  | some c =>
    if l.entryFree then l.startImport g k (some s) s (some c)
    else (l.moveVol g s .shelf).setSlot g k (.inbound (some s))

/-- The slot and volume that a request's end hands over (R38). -/
def handOverOf (l : Lib) (t : Nat) : Option (Nat × Serial) :=
  match l.pickSlot? t, (l.req? t).bind Request.serial? with
  | some k, some s => some (k, s)
  | _, _ => none

/-- A cancelled request completes, and a slot it had claimed in direction PICK is handed over (R78, R79). -/
def completeCancelled (g : Settings) (t : Nat) (l : Lib) : Lib :=
  let after := l.handOverOf t
  let l := l.complete g t .cancelled
  match after with
  | some (k, s) => l.handOver g k s
  | none => l

/-- A request whose order is withdrawn or ended before its pick goes back to its list, keeping its queue
sequence (R99, R115), or completes with cancel-pending (R79, R86). A RETURNING one goes back to RETURN-READY, at a withdrawal
with cancel-pending too, since R99 has no other end for it (at its accessor's fault, log 65). -/
def backToList (g : Settings) (t : Nat) (l : Lib) : Lib :=
  match l.req? t with
  | none => l
  | some r =>
    match r.state with
    | .fetching | .moving =>
      if r.cancelPending then l.completeCancelled g t
      else
        (l.dropDrive t).setReqState g t .queued
    | .returning => l.setReqState g t .returnReady
    | _ => l

/-! ## Shelf mounts -/

/-- The subject of a request's prompt (R127). -/
def requestSubject (l : Lib) (t : Nat) (d : Option Nat) : PromptSubject :=
  { PromptSubject.nothing with tag := some t, volume := (l.req? t).bind Request.serial?, drive := d }

/-- Gives a MANUAL drive to a request in MANUAL and posts its MANUAL-MOUNT (R73, R74). -/
def giveManual (g : Settings) (d t : Nat) (l : Lib) : Lib :=
  let l := (l.updReq t fun r => { r with drive := some d, qseq := none }).reserveDrive d t .manual
  l.postRequest g .manualMount t (l.requestSubject t (some d)) 0

/-- Chooses the route of a shelf mount (R73). -/
def chooseRoute (g : Settings) (t : Nat) (l : Lib) : Lib :=
  match l.req? t with
  | none => l
  | some r =>
    let l := l.setReqState g t .manual
    match l.chooseDrive (drivesWhere (l.eligible g r true)) with
    | some d => (l.updReq t fun q => { q with route := some .manualDrive }).giveManual g d t
    | none =>
      if l.couldServe r false then
        let l := l.updReq t fun q => { q with route := some .station }
        l.postRequest g .stationInsert t (l.requestSubject t none) 0
      else (l.updReq t fun q => { q with route := some .manualDrive }).takeQueue t

/-- The manual-drive waiting list (R74). -/
def manualWaiters (l : Lib) : List Request :=
  sortBy (fun x y => lexLt x.priority (x.qseq.getD 0) y.priority (y.qseq.getD 0))
    (l.reqs.live.filter fun r => r.state = .manual && r.route = some .manualDrive && r.drive.isNone)

/-- Offers a freed MANUAL drive to the waiting list (R51, R74). -/
def offerManual (g : Settings) (d : Nat) (l : Lib) : Lib :=
  match l.manualWaiters.find? fun r => l.eligible g r true d with
  | some r => l.giveManual g d r.tag
  | none => l

/-- A HELD request leaves HELD when the library enters READY (R71). -/
def leaveHeld (g : Settings) (t : Nat) (l : Lib) : Lib :=
  match l.req? t with
  | none => l
  | some r =>
    match (r.serial?).bind l.vol? with
    | some v => if v.state = .shelf then l.chooseRoute g t else l.enterQueued g t
    | none => l.enterQueued g t

/-! ## At the drive -/

/-- The request reaches MOUNTED: its readings, the volume's counts, a scratch volume's owner, and the
account's accrual (R2, R14, R72, R156). -/
def reqMounted (g : Settings) (t : Nat) (l : Lib) : Lib :=
  match l.req? t with
  | none => l
  | some r =>
    let l := (l.setReqState g t .mounted).updReq t fun q =>
      { q with mountedAt := some g.clock, accruedFrom := some g.clock }
    let scratch := r.kind = .mountScratch
    let owner := r.account.getD 0
    let expiry := satAdd max16 g.clock.day (r.expiryDays.getD 0)
    let l := match r.serial? with
      | some s => l.changeVol g s fun v =>
          { v with mounts := satAdd max16 v.mounts 1, lastMount := some g.clock.day,
                   cls := if scratch then .priv owner expiry else v.cls }
      | none => l
    l.accrue r.account fun a => if scratch then a.addMount.addScratchMount else a.addMount

/-- The request leaves MOUNTED: its drive-seconds are accrued (R156). -/
def reqUnmounted (g : Settings) (t : Nat) (l : Lib) : Lib :=
  match l.req? t with
  | none => l
  | some r =>
    match r.accruedFrom with
    | some from_ =>
      (l.updReq t fun q => { q with accruedFrom := none }).accrue r.account
        (Account.addSeconds (from_.elapsed g.clock))
    | none => l

/-- A MOUNTED request goes to REWINDING (R76). -/
def reqRewinding (g : Settings) (t : Nat) (l : Lib) : Lib :=
  (l.reqUnmounted g t).setReqState g t .rewinding

/-- Makes the RETURN of a reel left at an AUTOMATED drive, when an entry is free (R56, R65, R87, R181). -/
def returnFromDrive (g : Settings) (d : Nat) (l : Lib) : Lib :=
  let v := l.drive d
  if l.entryFree then
    match v.reel with
    | .recorded s =>
      let x := l.createReturn g (.volume s) (.drive d)
      (x.2.updDrive d fun v => { v with serving := some x.1 })
    | .unrecorded =>
      let x := l.createReturn g (.unknown v.reported) (.drive d)
      (x.2.updDrive d fun v => { v with serving := some x.1 })
    | .none => l
  else l

/-- The drive enters AWAIT-PICK (R56). -/
def enterAwaitPick (g : Settings) (d : Nat) (l : Lib) : Lib :=
  let l := l.updDrive d fun v => { v with state := .awaitPick, threadLeft := none, unloadLeft := none }
  match (l.drive d).serving with
  | some t =>
    if l.isAutomated d then l.enterReturnReady g t (.drive d)
    else if ((l.req? t).map Request.state) = some .manual then l
    else
      let l := l.setReqState g t .returning
      l.postRequest g .manualDismount t (l.requestSubject t (some d)) 0
  | none => if l.isAutomated d then l.returnFromDrive g d else l

/-- The drives of R65: AUTOMATED, in AWAIT-PICK with a reel and no serving request. -/
def orphanDrives (l : Lib) : List Nat :=
  drivesWhere fun d =>
    l.isAutomated d && (l.drive d).state = .awaitPick && (l.drive d).serving.isNone
      && (l.drive d).reel ≠ .none

/-- A mount reaches MOUNTED at a drive (R54). -/
def mountAt (g : Settings) (d t : Nat) (l : Lib) : Lib :=
  let l := l.updDrive d fun v =>
    { v with state := .mounted g.clock, threadLeft := none
             defn := v.defn.map fun def_ =>
               { def_ with lifeMounts := satAdd max32 def_.lifeMounts 1
                           sinceClean := satAdd max16 def_.sinceClean 1 } }
  (l.reqMounted g t).checkCleaning d

end Lib
end Sys2Proof.Machine
end

