-- ==== Sys2Proof/Machine/RailOps.lean ====
section
/-! DEFINITION. The shared operations of accessor control: reach and spans, sending an order, taking it up,
waiting, yielding, withdrawal, the end of an order, retargeting, abandoning and the accessor's fault. -/

namespace Sys2Proof

/-- The place is a station slot. -/
def Place.isSlot : Place → Bool
  | .slot _ => true
  | _ => false

namespace Machine

/-- The detail of an ACCESSOR-FAULT notice (R125). -/
def FaultCause.detail : FaultCause → Nat
  | .reported c => c
  | _ => 0

/-- The number of the next order or query (R102): 255 is followed by 1. -/
def nextOrder (n : Nat) : Nat := if n < 255 then n + 1 else 1

namespace Order

/-- The places an order still has to visit, in turn. -/
def placesLeft (o : Order) : List Place :=
  match o.kind with
  | .transfer s d => (if o.progress = .notPicked then [s] else []) ++ d.toList
  | _ => []

/-- A station step is still to be done (R107). -/
def stationLeft (o : Order) : Bool := o.placesLeft.any Place.isSlot

/-- Any step of the order is, or was, a pick or a place at a slot, done or not (R34, R212). -/
def touches (o : Order) : Bool :=
  o.station || match o.kind with
    | .transfer s d => s.isSlot || d.any Place.isSlot
    | _ => false

/-- The drive an order will place at. -/
def destDrive? (o : Order) : Option Nat :=
  match o.kind with
  | .transfer _ (some (.drive d)) => some d
  | _ => none

/-- The order is a HOME. -/
def isHome (o : Order) : Bool := o.kind = .home

/-- A TRANSFER held with a reel and no destination (R112). -/
def isHeld (o : Order) : Bool :=
  match o.kind with
  | .transfer _ none => true
  | _ => false

/-- The staged order is one set aside that R99 does not withdraw: it carries a reel (R105), or serves no
request (log 20). -/
def kept (o : Order) : Bool := o.progress ≠ .notPicked || o.serves.isNone

/-- The order's pick is done, or it needs none: a reel in the gripper. -/
def carries (o : Order) : Bool := o.progress ≠ .notPicked

end Order

namespace Lib

/-! ## Reach and spans -/

/-- The accessor is FAULTED. -/
def isFaulted (l : Lib) (x : AccId) : Bool :=
  match (l.acc x).state with
  | .faulted _ _ => true
  | _ => false

/-- The fault column of a FAULTED accessor. -/
def faultColumn? (l : Lib) (x : AccId) : Option Nat :=
  match (l.acc x).state with
  | .faulted _ c => some c
  | _ => none

/-- The park column of an accessor (00_scope, "Places"). -/
def park (l : Lib) : AccId → Nat
  | .a => 0
  | .b => l.lastCol

/-- The column beside the park column. -/
def besidePark (l : Lib) : AccId → Nat
  | .a => 1
  | .b => l.lastCol - 1

/-- The column lies in the accessor's reach (R103). -/
def inReach (l : Lib) (x : AccId) (c : Nat) : Bool :=
  !l.isFaulted x &&
    match x with
    | .a => c + 1 ≤ l.lastCol && (match l.faultColumn? .b with
        | some f => c < f
        | none => true)
    | .b => 1 ≤ c && c ≤ l.lastCol && (match l.faultColumn? .a with
        | some f => f < c
        | none => true)

/-- The columns of the places still to be visited; a gripper adds none (R104). -/
def visited (l : Lib) (x : AccId) (o : Order) : List Nat :=
  match o.kind with
  | .transfer _ _ => o.placesLeft.filterMap fun p => match p with
      | .gripper _ => none
      | p => some (l.placeCol x p)
  | .scan c => [c]
  | .yield c => [c]
  | .home => [l.park x, l.besidePark x]

/-- The last column an order visits (R97). -/
def lastVisited (l : Lib) (x : AccId) (o : Order) : Nat :=
  match o.kind with
  | .home => l.park x
  | _ => (l.visited x o).getLastD (l.acc x).pos

/-- The range from the position over the columns to be visited (R104). -/
def orderSpan (l : Lib) (x : AccId) (o : Order) : Span :=
  (l.visited x o).foldl (fun s c => { lo := min s.lo c, hi := max s.hi c }) (Span.point (l.acc x).pos)

/-- The span may be granted against the other accessor's reservation (R104). -/
def fits (l : Lib) (x : AccId) (s : Span) : Bool :=
  match x with
  | .a => s.hi < (l.acc .b).span.lo
  | .b => (l.acc .a).span.hi < s.lo

/-- Every column of the order lies in the accessor's reach. -/
def orderInReach (l : Lib) (x : AccId) (o : Order) : Bool := (l.visited x o).all (l.inReach x)

/-! ## The station lock -/

/-- The accessor's current order, or one set aside behind a YIELD, touches the station (R34, R105, R212). -/
def touching (l : Lib) (x : AccId) : Bool :=
  (l.acc x).current.any Order.touches || (l.acc x).staged.any Order.station

/-- LOCK when some order in hand touches the station and the door is CLOSED, UNLOCK when none touches it
(R34). -/
def updateLock (l : Lib) : Lib :=
  let touch := l.touching .a || l.touching .b
  if touch && !l.place.doorOpen && !l.place.locked then
    ({ l with place := { l.place with locked := true } }).send .lock
  else if !touch && l.place.locked then
    ({ l with place := { l.place with locked := false } }).send .unlock
  else l

/-! ## Sending -/

/-- What a request carries. -/
def cargoOf (l : Lib) (t : Option Nat) : Cargo := ((t.bind l.req?).map Request.cargo).getD .none

/-- What the gripper is expected to hold with this cargo, as a label. -/
def cargoLabel : Cargo → Option Serial
  | .volume s => some s
  | .unknown label => label
  | .none => none

/-- The serial a TRANSFER carries when its source is a cell: that of the volume it is sent for (R102, R208). -/
def expectedAt (l : Lib) (o : Order) : Place → Option Serial
  | .cell _ => cargoLabel (l.cargoOf o.serves)
  | _ => none

/-- What the ORDER carries (R208): after a pick the source is the gripper. -/
def orderBody (l : Lib) (x : AccId) (o : Order) : Option OrderBody :=
  match o.kind with
  | .transfer s (some d) =>
    let source := if o.progress = .notPicked then s else .gripper x
    some (.transfer source d (l.expectedAt o source))
  | .transfer _ none => none
  | .scan c => some (.scan c)
  | .yield c => some (.yield c)
  | .home => some (.home x)

/-- Sends the current order with a new number, starts the step timer, and makes the accessor MOVING (R102,
R104, R108). LOCK goes out first (R34). -/
def sendOrder (g : Settings) (x : AccId) (l : Lib) : Lib :=
  let l := l.updateLock
  match (l.acc x).current with
  | none => l
  | some o =>
    match l.orderBody x o with
    | none => l
    | some body =>
      let n := nextOrder (l.acc x).counter
      (l.updAcc x fun v =>
        { v with counter := n, current := some { o with number := some n }, timer := some g.timers.step,
                 state := .moving }).send (.order x n body)

/-- Sends GRIPPER-QUERY with a new number and starts the step timer for it (R102, R108). -/
def sendQuery (g : Settings) (x : AccId) (why : QueryFor) (l : Lib) : Lib :=
  let n := nextOrder (l.acc x).counter
  (l.updAcc x fun v =>
    { v with counter := n, query := some { number := n, purpose := why }, timer := some g.timers.step }).send
      (.gripperQuery x n)

/-! ## Waiting -/

/-- The accessor is in WAIT-SPAN. -/
def isWaiting (l : Lib) (x : AccId) : Bool := (l.acc x).state = .waitSpan

/-- Keeps the record of which accessor has waited longest true after `x` has left WAIT-SPAN. -/
def leftWait (x : AccId) (l : Lib) : Lib :=
  if l.rail.firstWaiter = some x then
    { l with rail := { l.rail with
        firstWaiter := if l.isWaiting (other x) then some (other x) else none } }
  else l

/-- The current order has its span: the accessor waits for the station door, with no step timer, or the order
is sent (R104, R107). -/
def granted (g : Settings) (x : AccId) (s : Span) (l : Lib) : Lib :=
  let wait := l.place.doorOpen && (l.acc x).current.any Order.stationLeft
  let l := (l.updAcc x fun v =>
    { v with span := s, need := none, state := if wait then .waitStation else .moving
             timer := if wait then none else v.timer }).leftWait x
  if wait then l.updateLock else l.sendOrder g x

/-- Grants a waiting accessor's needed span when it fits (R105). -/
def retest (g : Settings) (x : AccId) (l : Lib) : Lib :=
  match l.isWaiting x, (l.acc x).need with
  | true, some s => if l.fits x s then l.granted g x s else l
  | _, _ => l

/-- A new order that serves no request. -/
def plainOrder (k : OrderKind) : Order :=
  { kind := k, number := none, serves := none, progress := .notPicked, newHome := false }

/-- Where an accessor yields to clear a needed span (R105). -/
def yieldColumn (y : AccId) (need : Span) : Nat :=
  match y with
  | .a => need.lo - 1
  | .b => need.hi + 1

/-- Gives an accessor a YIELD as its current order; its span runs away from the other and is granted at
once (R105). -/
def startYield (g : Settings) (y : AccId) (c : Nat) (l : Lib) : Lib :=
  let o := plainOrder (.yield c)
  let l := l.updAcc y fun v => { v with current := some o }
  l.granted g y (l.orderSpan y o)

/-- The drive an order set aside or made current will place at takes the given reservation cause (R53,
log 19). -/
def setCauseOf (o : Order) (c : Cause) (l : Lib) : Lib :=
  match o.destDrive? with
  | some d =>
    if l.isReserved d && (l.drive d).serving = o.serves then
      l.updDrive d fun v => { v with state := .reserved c }
    else l
  | none => l

/-! ## Withdrawal (R99) -/

/-- Releases what a staged or unpicked order has reserved (R99). -/
def releaseReservations (g : Settings) (o : Order) (t : Nat) (l : Lib) : Lib :=
  let l := ((l.servingDrives t).filter l.isReserved).foldl (fun l d => l.releaseDrive d) l
  let l := l.freePlaceSlot g t
  let l := if o.newHome then
      match (l.req? t).bind Request.serial? with
      | some s => l.clearHome g s (.empty none)
      | none => l
    else l
  l.clearMarks t

/-- The staged slot becomes empty (R95); an order set aside there may end its touch of the station (R34, R212). -/
def unstage (x : AccId) (l : Lib) : Lib := (l.updAcc x fun v => { v with staged := none }).wake.updateLock

/-- Withdraws an accessor's staged order (R99): its reservations go, and its request returns to its list. -/
def withdrawStaged (g : Settings) (x : AccId) (l : Lib) : Lib :=
  match (l.acc x).staged with
  | none => l
  | some o =>
    if o.kept then l
    else
      let l := l.unstage x
      match o.serves with
      | some t => (l.releaseReservations g o t).backToList g t
      | none => l

/-- The accessor on which a withdrawable order for a request is staged. -/
def stagedFor? (l : Lib) (t : Nat) : Option AccId :=
  [AccId.a, AccId.b].find? fun x => (l.acc x).staged.any fun o => o.serves = some t && !o.kept

/-- The accessor whose current order, or order set aside with a reel, serves a request. -/
def currentFor? (l : Lib) (t : Nat) : Option AccId :=
  [AccId.a, AccId.b].find? fun x =>
    (l.acc x).current.any (fun o => o.serves = some t)
      || (l.acc x).staged.any (fun o => o.serves = some t && o.kept)

/-- Withdraws the staged order of a request that is itself ended or freed (R78, R90, R92). The drive field of its
record stands (log 41). -/
def dropStaged (g : Settings) (t : Nat) (l : Lib) : Lib :=
  match l.stagedFor? t with
  | none => l
  | some x =>
    match (l.acc x).staged with
    | some o => (l.unstage x).releaseReservations g o t
    | none => l

/-- Withdraws the staged order of a request, which returns to its list (R99). -/
def withdrawFor (g : Settings) (t : Nat) (l : Lib) : Lib :=
  match l.stagedFor? t with
  | some x => l.withdrawStaged g x
  | none => l

/-! ## Contention (R105) -/

/-- X's order is set aside behind a YIELD for the other's need (R105); a touch of the station lasts (R212). -/
def setAside (g : Settings) (x : AccId) (need : Span) (l : Lib) : Lib :=
  let l := l.withdrawStaged g x
  match (l.acc x).current with
  | none => l
  | some o =>
    let l := if o.carries then l else l.setCauseOf o .staged
    let l := (l.updAcc x fun v =>
      { v with staged := some { o with number := none, station := o.touches } }).wake
    l.startYield g x (yieldColumn x need)

/-- Settles an accessor's wait against the other's state (R105), its span having been tested first. -/
def contend (g : Settings) (x : AccId) (l : Lib) : Lib :=
  let l := (l.retest g (other x)).retest g x
  match l.isWaiting x, (l.acc x).need with
  | true, some s =>
    let y := l.acc (other x)
    match y.state with
    | .idle =>
      if s.lo ≤ y.pos && y.pos ≤ s.hi then l.startYield g (other x) (yieldColumn (other x) s) else l
    | .waitSpan =>
      match y.need with
      | some n =>
        if l.rail.firstWaiter = some (other x) && n.lo ≤ (l.acc x).pos && (l.acc x).pos ≤ n.hi then
          (l.setAside g x n).retest g (other x)
        else l
      | none => l
    | _ => l
  | _, _ => l

/-- The accessor goes to WAIT-SPAN with its needed span (R104, R105). -/
def enterWait (g : Settings) (x : AccId) (s : Span) (l : Lib) : Lib :=
  let l := l.updAcc x fun v =>
    { v with state := .waitSpan, need := some s, span := Span.point v.pos, timer := none
             current := v.current.map fun o => { o with number := none } }
  let l := { l with rail := { l.rail with firstWaiter := some (l.rail.firstWaiter.getD x) } }
  l.updateLock.contend g x

/-- Takes up the current order (R104). -/
def takeUp (g : Settings) (x : AccId) (l : Lib) : Lib :=
  match (l.acc x).current with
  | none => l
  | some o =>
    let s := l.orderSpan x o
    if l.fits x s then l.granted g x s else l.enterWait g x s

/-! ## Destinations (R77, R112) -/

/-- Chooses the destination of a reel in a gripper and reserves it (R77, R87, R112): the home cell, a free
cell, or the lowest EMPTY slot; for an EJECT a slot only. Decided as for a return, a slot is taken only with the
door CLOSED (R77, case 3). -/
def chooseDest (g : Settings) (t : Nat) (asReturn : Bool) (l : Lib) : Option (Place × Lib) :=
  match l.req? t with
  | none => none
  | some r =>
    let slot : Option (Place × Lib) :=
      if asReturn && l.place.doorOpen then none
      else l.freeSlot?.map fun k => (.slot k, l.setSlot g k (.place t))
    match r.cargo with
    | .volume s =>
      if r.kind = .eject then slot
      else
        match (l.vol? s).bind Volume.homeCell with
        | some n => some (.cell n, l)
        | none =>
          match l.freeCell? with
          | some n => some (.cell n, l.reserveHome g s n)
          | none => slot
    | .unknown _ =>
      match l.freeCell? with
      | some n => some (.cell n, l.setCell n (.empty (some t)))
      | none => slot
    | .none => none

/-- Gives an order a new destination. -/
def redirect (d : Option Place) (o : Order) : Order :=
  match o.kind with
  | .transfer s _ => { o with kind := .transfer s d }
  | _ => o

/-- Gives a current order a new destination; a touch of the station lasts (R212). -/
def newDest (d : Option Place) (o : Order) : Order := { redirect d o with station := o.touches }

/-- Says how the destination of the current order is decided from now on (R77, R112). -/
def decideAs (asReturn : Bool) (x : AccId) (l : Lib) : Lib :=
  l.updAcc x fun v => { v with current := v.current.map fun o => { o with asReturn := asReturn } }

/-- The accessor holds its reel with no destination, and LIBRARY-FULL is posted for it (R112). Its timer stops, of
an outstanding resume query too (log 53). -/
def holdReel (g : Settings) (x : AccId) (l : Lib) : Lib :=
  let l := (l.updAcc x fun v =>
    { v with current := v.current.map (newDest none), timer := none
             state := if v.state = .halted then .halted else .moving, need := none }).leftWait x
  l.updateLock.postNotice g .libraryFull { PromptSubject.nothing with accessor := some x } 0

/-- Withdraws the LIBRARY-FULL notice of an accessor (R112, R115). -/
def clearHeldNotice (g : Settings) (x : AccId) (l : Lib) : Lib :=
  l.withdrawNotice g .libraryFull fun p => p.accessor = some x

/-- Sends a reel in the gripper to a new destination (R113); while HALTED the frozen order changes instead
(R213). The lock follows (R34, R212). -/
def retarget (g : Settings) (x : AccId) (d : Place) (l : Lib) : Lib :=
  if (l.acc x).state = .halted then
    (l.updAcc x fun v => { v with current := v.current.map (newDest (some d)) }).updateLock
  else
    let l := l.updAcc x fun v =>
      { v with current := v.current.map fun o =>
          { newDest (some d) o with progress := if o.carries then .picked else .notPicked } }
    match (l.acc x).current with
    | none => l
    | some o =>
      let s := l.orderSpan x o
      let held := (l.acc x).span
      let both : Span := { lo := min s.lo held.lo, hi := max s.hi held.hi }
      if l.fits x both then l.granted g x both else l.enterWait g x s

/-- A destination has been found for the reel in the gripper: its LIBRARY-FULL notice, if it was held, is
withdrawn, and the reel is retargeted (R112, R128). -/
def destFound (g : Settings) (x : AccId) (d : Place) (l : Lib) : Lib := (l.clearHeldNotice g x).retarget g x d

/-- A home cell has been chosen for the reel in the gripper: it is one of case 2 of R77, which R99 releases, when
the destination was decided as for a return; one that R112 chooses is the volume's home for good. `was` is the
library before the choice. -/
def noteNewHome (x : AccId) (t : Nat) (l was : Lib) : Lib :=
  if (((was.req? t).bind Request.serial?).bind was.vol?).any fun v => v.homeCell.isNone then
    l.updAcc x fun v => { v with current := v.current.map fun o => { o with newHome := o.asReturn } }
  else l

/-- A destination is chosen for the reel of a request in the gripper (R77, R112), and the reel is sent there. -/
def sendReel? (g : Settings) (x : AccId) (t : Nat) (asReturn : Bool) (l : Lib) : Option Lib :=
  (l.chooseDest g t asReturn).map fun c => (c.2.noteNewHome x t l).destFound g x c.1

/-- Finds a destination for the reel in the gripper and retargets it, or holds it (R112). -/
def retargetOrHold (g : Settings) (x : AccId) (l : Lib) : Lib :=
  match (l.acc x).current with
  | none => l
  | some o =>
    match o.serves with
    | none => l
    | some t => (l.sendReel? g x t o.asReturn).getD (l.holdReel g x)

/-- An accessor that holds a reel with no destination tries its choice again (R29, R112). -/
def tryHeld (g : Settings) (x : AccId) (l : Lib) : Lib :=
  match (l.acc x).current with
  | none => l
  | some o =>
    if o.isHeld then (o.serves.bind fun t => l.sendReel? g x t o.asReturn).getD l else l

/-- Offers a cell or slot that has freed to the accessors that hold a reel, A before B (R29, R39). -/
def offerPlaces (g : Settings) (l : Lib) : Lib :=
  if l.notes.placeFreed then
    ({ l with notes := { l.notes with placeFreed := false } }.tryHeld g .a).tryHeld g .b
  else l

/-! ## The end of an order (R104, R106) -/

/-- Makes an order the current one (R98, R104): the drive's cause becomes CURRENT, and a reel already in
the gripper counts as picked (log 18). -/
def makeCurrent (g : Settings) (x : AccId) (o : Order) (l : Lib) : Lib :=
  let inGripper := match o.kind with
    | .transfer (.gripper _) _ => true
    | _ => false
  let o := if inGripper && o.progress = .notPicked then { o with progress := .picked } else o
  let l := (l.updAcc x fun v => { v with current := some o }).setCauseOf o .current
  if o.isHeld then (l.updAcc x fun v => { v with state := .moving }).retargetOrHold g x
  else (l.updateLock).takeUp g x

/-- The next order of an accessor that has none: a homing that is due, then the staged order; else IDLE
(R104, R183, R188). -/
def promote (g : Settings) (x : AccId) (l : Lib) : Lib :=
  if (l.acc x).homing = .due then
    (l.updAcc x fun v => { v with homing := .underWay }).makeCurrent g x (plainOrder .home)
  else
    match (l.acc x).staged with
    | some o => ((l.updAcc x fun v => { v with staged := none }).wake).makeCurrent g x o
    | none => (l.updAcc x fun v => { v with state := .idle }).wake

/-- Serves a waiting accessor before the other's next order (R106): true when `y` has been given a YIELD. -/
def serveWaiter (g : Settings) (y : AccId) (l : Lib) : Lib :=
  let x := other y
  match l.isWaiting x, (l.acc x).need with
  | true, some s =>
    let p := (l.acc y).pos
    if s.lo ≤ p && p ≤ s.hi then l.startYield g y (yieldColumn y s) else l.retest g x
  | _, _ => l

/-- An accessor's current order ends (R104, R106). While HALTED only the frozen order goes (R213, log 27). The timer
of an outstanding query runs on (log 53); where the next order touches the station as this one did, UNLOCK and then
LOCK are sent (log 56). -/
def endOrder (g : Settings) (y : AccId) (l : Lib) : Lib :=
  if (l.acc y).state = .halted then
    (l.updAcc y fun v => { v with current := none, frozen := false }).updateLock
  else
    let l := (l.updAcc y fun v =>
      { v with current := none, timer := if v.query.isSome then v.timer else none, span := Span.point v.pos
               need := none, state := .idle }).leftWait y
    let l := l.updateLock.serveWaiter g y
    if (l.acc y).current.isNone then l.promote g y else l

/-- Replaces an order whose work can no longer be done by a YIELD to the last reported column (R113); while
HALTED the frozen order is removed (R213). -/
def abandon (g : Settings) (x : AccId) (l : Lib) : Lib :=
  if (l.acc x).state = .halted then l.endOrder g x
  else
    ((l.updAcc x fun v =>
      { v with current := some (plainOrder (.yield v.pos)), need := none, state := .moving }).leftWait x).sendOrder
        g x

/-! ## Causes that change an order in hand -/

/-- The drive a request's current order was to place at is lost (R53, R113). The caller has taken the
drive out of service and cleared its serving request. -/
def driveLost (g : Settings) (t : Nat) (l : Lib) : Lib :=
  match l.currentFor? t with
  | none => l
  | some x =>
    match (l.acc x).current with
    | some o =>
      if o.serves = some t then
        if o.carries then
          ((((l.fixCode t .driveFault).setReqState g t .returning).dropDrive t).decideAs true x).retargetOrHold g x
        else ((l.releaseReservations g o t).abandon g x).backToList g t
      else
        (((l.fixCode t .driveFault).setReqState g t .returning).dropDrive t).updAcc x fun v =>
          { v with staged := v.staged.map fun o => { redirect none o with asReturn := true } }
    | none => l

/-- A drive reserved for a staged or current order is taken out from under it: the order is withdrawn, or
the request is told that the drive is lost (R47, R53, R54, R58). The reservation is over. -/
def unreserve (g : Settings) (d : Nat) (l : Lib) : Lib :=
  match (l.drive d).state, (l.drive d).serving with
  | .reserved .staged, some t => l.withdrawFor g t
  | .reserved .current, some t =>
    (l.updDrive d fun v => { v with state := .idle, serving := none }).driveLost g t
  | _, _ => l

/-! ## A volume lost (R90) -/

/-- Declares a volume MISSING and ends the request that holds it, where R90 says so. A HELD or QUEUED holder
completes in the same step, and with it the hold of R42 (log 62). -/
def loseVolume (g : Settings) (s : Serial) (cellTo : Cell) (l : Lib) : Lib :=
  match l.vol? s with
  | none => l
  | some v =>
    if v.state = .missing then l
    else
      let l := l.declareMissing g s cellTo
      match v.holder.bind l.req? with
      | none => l
      | some r =>
        match r.state with
        | .held | .queued => l.complete g r.tag .volumeMissing
        | .fetching | .moving =>
          if (l.stagedFor? r.tag).isSome then (l.dropStaged g r.tag).complete g r.tag .volumeMissing else l
        | _ => l

/-! ## The accessor's fault (R115, R116) -/

/-- A cancelled return, whose reel waits at its drive. -/
def cancelledReturn (l : Lib) (t : Nat) : Bool :=
  (l.req? t).any fun r => r.state = .returning && r.cancelPending

/-- Deals with the order a faulted accessor had in hand (R115). A cancelled return that has not picked completes, and
the entries that are free are offered for the reel left at its drive (R65, log 65). -/
def faultedOrder (g : Settings) (o : Order) (l : Lib) : Lib :=
  match o.serves with
  | none => l
  | some t =>
    if o.carries then (l.fixCode t .accessorFault).complete g t .accessorFault
    else
      let l := l.releaseReservations g o t
      if l.cancelledReturn t then (l.completeCancelled g t).noteEntryFreed else l.backToList g t

/-- The request of an order abandoned with its reel picked goes back to its list as for a withdrawal, the gripper
as its source (R99, R105). With cancel-pending it runs on, since its pick is done (R79, log 20). -/
def gripperToList (g : Settings) (x : AccId) (t : Nat) (l : Lib) : Lib :=
  let l := l.updReq t fun q => { q with source := some (.gripper x) }
  match (l.req? t).map Request.state with
  | some .fetching | some .moving => (l.dropDrive t).setReqState g t .queued
  | some .returning => l.setReqState g t .returnReady
  | _ => l

/-- A waiting order that visits a column out of reach is abandoned, its request returns to its list, and its
accessor goes on (R105). -/
def dropUnreachable (g : Settings) (x : AccId) (l : Lib) : Lib :=
  let l := match (l.acc x).staged with
    | some o => if l.orderInReach x o then l else l.withdrawStaged g x
    | none => l
  match l.isWaiting x, (l.acc x).current with
  | true, some o =>
    if l.orderInReach x o then l.retest g x
    else
      match o.serves with
      | some t =>
        let l := l.releaseReservations g o t
        (if o.carries then l.gripperToList g x t else l.backToList g t).endOrder g x
      | none => (l.updAcc x fun v => { v with homing := if o.isHome then .ended else v.homing }).endOrder g x
  | _, _ => l

/-- An accessor becomes FAULTED (R115, R116). `column` is the one reported; after a timeout it is the column
of the reserved span nearest the other accessor. -/
def faultAcc (g : Settings) (x : AccId) (why : FaultCause) (column : Option Nat) (l : Lib) : Lib :=
  let was := l.cat.scratch
  let v := l.acc x
  let c := column.getD (match x with
    | .a => v.span.hi
    | .b => v.span.lo)
  let l := l.withdrawStaged g x
  let left := (l.acc x).staged.toList ++ v.current.toList
  let l := (l.updAcc x fun v =>
    { v with state := .faulted why c, current := none, staged := none, span := Span.point c, need := none
             query := none, frozen := false, timer := none, homing := .ended }).leftWait x
  let l := left.foldl (fun l o => l.faultedOrder g o) l
  let l := l.updateLock.clearHeldNotice g x
  let l := (l.raiseAccessor x (Span.point c)).postNotice g .accessorFault
    { PromptSubject.nothing with accessor := some x } why.detail
  ((l.dropUnreachable g (other x)).orderJoined was).wake

end Lib
end Machine
end Sys2Proof
end

