-- ==== Sys2Proof/Machine/Dispatcher.lean ====
section
/-! DEFINITION. The dispatcher (R94 to R100): the lists, dispatchability, the choice, staging and
displacement. -/

namespace Sys2Proof.Machine.Lib

/-- A job stands before another in the lists: lower level, then lower queue sequence (R94, R97). -/
def jobBefore (x y : Request) : Bool := lexLt x.level (x.qseq.getD 0) y.level (y.qseq.getD 0)

/-- The jobs of the four lists in list order (R94). -/
def jobs (l : Lib) : List Request := sortBy jobBefore (l.reqs.live.filter fun r => r.state.inList)

/-- The dispatcher may stage onto the accessor at all (R95, R96). -/
def mayTake (l : Lib) (x : AccId) : Bool :=
  !l.rail.interlock
    && (match l.start.state with
      | .ready => true
      | .starting => (l.acc x).homing = .ended
      | _ => false)
    && (match (l.acc x).state with
      | .idle | .moving | .waitSpan | .waitStation => true
      | _ => false)

/-- The source column of a job (R96). -/
def jobColumn (l : Lib) (x : AccId) (r : Request) : Nat :=
  match r.cursor, r.source with
  | some c, _ => c.next
  | none, some p => l.placeCol x p
  | none, none => (l.acc x).pos

/-- The destination a return would take, with nothing reserved yet (R77, R87). -/
def returnDest? (l : Lib) (r : Request) : Option Place :=
  let slot := if l.place.doorOpen then none else l.freeSlot?.map Place.slot
  match r.cargo with
  | .volume s =>
    match (l.vol? s).bind Volume.homeCell with
    | some n => some (.cell n)
    | none =>
      match l.freeCell? with
      | some n => some (.cell n)
      | none => slot
  | .unknown _ =>
    match l.freeCell? with
    | some n => some (.cell n)
    | none => slot
  | .none => none

/-- The drives a fetch may go to on an accessor: eligible, with their columns in its reach (R96, R97). -/
def fetchDrives (g : Settings) (l : Lib) (x : AccId) (r : Request) : List Nat :=
  drivesWhere fun d => l.eligible g r false d && (match l.driveCol d with
    | some c => l.inReach x c
    | none => false)

/-- The drive a CLEAN names can take it on this accessor (R62, R96). -/
def cleanDriveReady (l : Lib) (x : AccId) (d : Nat) : Bool :=
  match (l.drive d).defn, l.driveCol d with
  | some def_, some c =>
    def_.confirmed && (l.drive d).state = .idle && !(l.drive d).offPending && l.inReach x c
  | _, _ => false

/-- An accessor whose gripper holds the reel of a RETURN-READY request takes no other job, and no other
accessor takes that one (R96); so for a QUEUED request whose order was abandoned with its reel picked (R105,
log 20). -/
def gripperAllows (l : Lib) (x : AccId) (r : Request) : Bool :=
  let waiting (y : AccId) (q : Request) : Bool := q.state.inList && q.source = some (.gripper y)
  (match r.source with
    | some (.gripper y) => y = x
    | _ => true)
  && l.reqs.live.all fun q => !waiting x q || q.tag = r.tag

/-- The account of a fetch lets it go (R96, R153): the work of a converted request, which alone is a mount of origin
INTERNAL (R92), is not gated by any account. -/
def accountAllows (l : Lib) (r : Request) : Bool :=
  r.origin = .internal || (r.account.map l.passesDriveLimit).getD false

/-- The conditions of the job's kind (R96). -/
def kindAllows (g : Settings) (l : Lib) (x : AccId) (r : Request) : Bool :=
  let doorShut := !l.place.doorOpen
  if r.state = .returnReady then
    match l.returnDest? r with
    | some p => l.inReach x (l.placeCol x p)
    | none => false
  else
    match r.kind with
    | .mount | .mountScratch =>
      !(l.fetchDrives g x r).isEmpty && l.accountAllows r
        && (doorShut || !r.source.any Place.isSlot)
    | .clean => (r.drive.map (l.cleanDriveReady x)).getD false
    | .eject => l.freeSlot?.isSome && doorShut && l.inReach x l.store.lib.stationColumn
    | .imp =>
      doorShut && (match ((r.serial?).bind l.vol?).bind Volume.homeCell with
        | some n => l.inReach x (l.cellCol n)
        | none => false)
    | .audit => true
    | .ret => false

/-- The job is dispatchable on the accessor (R96), whatever stands in its staged slot. -/
def dispatchable (g : Settings) (l : Lib) (x : AccId) (r : Request) : Bool :=
  l.mayTake x && r.state.inList && l.gripperAllows x r && l.inReach x (l.jobColumn x r)
    && l.kindAllows g x r

/-- The accessor's staged slot is empty (R97). -/
def slotEmpty (l : Lib) (x : AccId) : Bool := (l.acc x).staged.isNone

def distance (a b : Nat) : Nat := if a ≤ b then b - a else a - b

/-- How far an accessor stands from a job (R97). -/
def jobDistance (l : Lib) (x : AccId) (r : Request) : Nat :=
  let from_ := match (l.acc x).current with
    | some o => l.lastVisited x o
    | none => (l.acc x).pos
  distance from_ (l.jobColumn x r)

/-- The accessor that gets the job (R97). -/
def chooseAccessor (g : Settings) (l : Lib) (r : Request) : Option AccId :=
  let can (x : AccId) : Bool := l.slotEmpty x && l.dispatchable g x r
  match can .a, can .b with
  | true, true => some (if l.jobDistance .a r ≤ l.jobDistance .b r then .a else .b)
  | true, false => some .a
  | false, true => some .b
  | false, false => none

/-- The order of a job with its reservations made and its request in its next state (R98). -/
def prepare (g : Settings) (x : AccId) (r : Request) (l : Lib) : Lib × Option Order :=
  let order (k : OrderKind) (newHome : Bool) : Order :=
    { kind := k, number := none, serves := some r.tag, progress := .notPicked, newHome := newHome }
  let source := r.source.getD (.gripper x)
  if r.state = .returnReady then
    let l := l.setReqState g r.tag .returning
    match l.returnDest? r with
    | some (.cell n) =>
      match r.cargo with
      | .volume s =>
        let away := ((l.vol? s).bind Volume.homeCell).isNone
        (if away then l.reserveHome g s n else l, some (order (.transfer source (some (.cell n))) away))
      | _ => (l.setCell n (.empty (some r.tag)), some (order (.transfer source (some (.cell n))) false))
    | some (.slot k) =>
      (l.setSlot g k (.place r.tag), some (order (.transfer source (some (.slot k))) false))
    | _ => (l, none)
  else
    match r.kind with
    | .mount | .mountScratch =>
      match l.chooseDrive (l.fetchDrives g x r) with
      | some d =>
        let l := (l.reserveDrive d r.tag .staged).updReq r.tag fun q => { q with drive := some d }
        (l.setReqState g r.tag .fetching, some (order (.transfer source (some (.drive d))) false))
      | none => (l, none)
    | .clean =>
      match r.drive with
      | some d =>
        ((l.reserveDrive d r.tag .staged).setReqState g r.tag .fetching,
          some (order (.transfer source (some (.drive d))) false))
      | none => (l, none)
    | .eject =>
      match l.freeSlot? with
      | some k =>
        ((l.setSlot g k (.place r.tag)).setReqState g r.tag .moving,
          some (order (.transfer source (some (.slot k))) false))
      | none => (l, none)
    | .imp =>
      match ((r.serial?).bind l.vol?).bind Volume.homeCell with
      | some n =>
        (l.setReqState g r.tag .moving, some (order (.transfer source (some (.cell n))) false))
      | none => (l, none)
    | .audit =>
      (l.setReqState g r.tag .moving,
        some (order (.scan ((r.cursor.map Cursor.next).getD 0)) false))
    | .ret => (l, none)

/-- Stages a job on an accessor; with no current order it passes through to current (R98). A place that this
frees is offered to the accessors before the dispatcher goes on (R29, R39). -/
def stage (g : Settings) (x : AccId) (r : Request) (l : Lib) : Lib :=
  match l.prepare g x r with
  | (l, some o) =>
    if (l.acc x).current.isNone then (l.makeCurrent g x o).offerPlaces g
    else l.updAcc x fun v => { v with staged := some o }
  | (l, none) => l

/-- Tries one job, taken from its list by its tag (R97). -/
def tryJob (g : Settings) (l : Lib) (t : Nat) : Lib :=
  match l.req? t with
  | some r =>
    match l.chooseAccessor g r with
    | some x => l.stage g x r
    | none => l
  | none => l

/-- Works through the lists once (R97). -/
def pass (g : Settings) (l : Lib) : Lib := (l.jobs.map Request.tag).foldl (fun l t => l.tryJob g t) l

/-- Works through the lists until no job can be staged (R95, R97). -/
def passes (g : Settings) : Nat → Lib → Lib
  | 0, l => l
  | fuel + 1, l =>
    let l' := l.pass g
    if l'.jobs.length < l.jobs.length then passes g fuel l' else l'

/-- The request served by an accessor's staged order, when that order may be displaced (R100, R105). -/
def stagedJob? (l : Lib) (x : AccId) : Option Request :=
  match (l.acc x).staged with
  | some o => if o.kept then none else o.serves.bind l.req?
  | none => none

/-- The accessors whose staged job may give way to `r`, each with that job (R100). -/
def displaceable (g : Settings) (l : Lib) (r : Request) : List (AccId × Request) :=
  [AccId.a, AccId.b].filterMap fun x =>
    match l.stagedJob? x with
    | some k => if r.level < k.level && l.dispatchable g x r then some (x, k) else none
    | none => none

/-- The staged job withdrawn: the largest level, then the latest queue sequence (R100). -/
def chooseDisplaced (ks : List (AccId × Request)) : Option (AccId × Request) :=
  (sortBy (fun x y => lexLt y.2.level (y.2.qseq.getD 0) x.2.level (x.2.qseq.getD 0)) ks).head?

/-- One displacement, when one applies (R100). A slot that K's withdrawal frees is offered to the accessors
first (R39). -/
def displace (g : Settings) (l : Lib) : Option Lib :=
  match l.jobs.find? fun r => (l.chooseAccessor g r).isNone && !(l.displaceable g r).isEmpty with
  | some r =>
    match chooseDisplaced (l.displaceable g r) with
    | some (x, _) =>
      let l := (l.withdrawStaged g x).offerPlaces g
      some (match l.req? r.tag with
        | some r => if l.slotEmpty x && l.dispatchable g x r then l.stage g x r else l
        | none => l)
    | none => none
  | none => none

/-- A run of the dispatcher: the choice, then displacement, until neither applies (R95, R100). -/
def dispatch (g : Settings) : Nat → Lib → Lib
  | 0, l => l
  | fuel + 1, l =>
    let l := l.passes g Config.requestEntries
    match l.displace g with
    | some l => dispatch g fuel l
    | none => l

end Sys2Proof.Machine.Lib
end

