-- ==== Sys2Proof/Machine/Events.lean ====
section
/-! DEFINITION. The station scan, the actions of the standing links, and the settling of a step: what the
part still does in the same step once the records of an event have changed (log 15). -/

namespace Sys2Proof.Machine

namespace Lib

/-! ## The station scan (R36, R37) -/

/-- The request that waits for station insert with this volume (R37, case 1). -/
def insertWaiter? (l : Lib) (v : Volume) : Option Nat :=
  match v.holder.bind l.req? with
  | some r =>
    if r.state = .manual && r.route = some .station && r.kind = .mount then some r.tag else none
  | none => none

/-- The record that auto-enter makes (R15). -/
def autoVolume (l : Lib) (s : Serial) (st : VolState) (cell : Option Nat) : Volume :=
  { serial := s, cls := .scratch, state := st, homeCell := cell, density := l.store.lib.autoDensity,
    ring := true, mounts := 0, errors := 0, lastMount := none, holder := none }

/-- The catalogue has room (R1). -/
def catalogueRoom (l : Lib) : Bool := l.cat.vols.length < Config.volumeRecords

/-- Takes in the reel of a slot as an IMPORT, when a cell and an entry are free (R37, cases 2 and 3). -/
def importOrWait (g : Settings) (k : Nat) (s : Serial) (make : Lib → Lib) (l : Lib) : Lib :=
  match l.freeCell? with
  | none => l.rejectSlot g k (some s) .libraryFull
  | some c => if l.entryFree then (make l).startImport g k (some s) s (some c) else l

/-- The request that waits for this reel claims it in its slot, and enters QUEUED (R37, case 1). -/
def claimSlot (g : Settings) (k : Nat) (s : Serial) (t : Nat) (l : Lib) : Lib :=
  let l := (l.setSlot g k (.pick (some s) t)).moveVol g s (.station k)
  let l := (l.clearRequestPrompt g t).updReq t fun r => { r with source := some (.slot k) }
  l.enterQueued g t

/-- Settles one INBOUND slot (R37). -/
def settleSlot (g : Settings) (l : Lib) (k : Nat) : Lib :=
  match l.slot k with
  | .inbound none => l.rejectSlot g k none .unreadable
  | .inbound (some s) =>
    match l.vol? s with
    | some v =>
      if v.state = .shelf then
        match v.holder with
        | none => l.importOrWait g k s id
        | some _ =>
          match l.insertWaiter? v with
          | some t => l.claimSlot g k s t
          | none => l.rejectSlot g k (some s) .volumeInUse
      else l.rejectSlot g k (some s) .notShelf
    | none =>
      if l.store.lib.autoEnter then
        if l.catalogueRoom then
          l.importOrWait g k s fun l => l.addVol (l.autoVolume s .shelf none)
        else l.rejectSlot g k (some s) .catalogueFull
      else l.rejectSlot g k (some s) .unknownLabel
  | _ => l

/-- A station scan (R36). -/
def scan (g : Settings) (l : Lib) : Lib :=
  (List.range Config.stationSlots).foldl (fun l k => l.settleSlot g k) l

/-! ## Link actions (R167 to R170) -/

/-- The action a source's link names (R164). -/
def linkOf (g : Settings) (s : Source) : Action := g.links.getD (s.number - 1) .none

/-- STARTING or READY. -/
def serving (l : Lib) : Bool := l.start.state = .ready || l.start.state = .starting

/-- POST-NOTICE (R167). -/
def postNoticeFor (g : Settings) (r : Raising) (l : Lib) : Lib :=
  match r.source with
  | .cleaningDue =>
    match r.drive with
    | some d => l.postNotice g .cleaningDue { PromptSubject.nothing with drive := some d } 0
    | none => l
  | .scratchLow => l.postNotice g .scratchLow .nothing 0
  | .queueStall =>
    match r.tag with
    | some t =>
      if (l.req? t).any (fun q => q.state.inList) then
        l.postNotice g .queueStall { PromptSubject.nothing with tag := some t } 0
      else l
    | none => l
  | .periodTimer => l.postNotice g .periodDue .nothing 0
  | _ => l

/-- An audit made by AUDIT-SPAN already stands over the columns, not yet begun (R169). -/
def auditStands (l : Lib) (c : Span) : Bool :=
  l.reqs.live.any fun r =>
    r.kind = .audit && r.origin = .internal && r.bySpan && r.state = .queued
      && r.cursor = some { next := c.lo, first := c.lo, last := c.hi }

/-- Makes the action of one raising (R163, R167 to R170). -/
def act (g : Settings) (l : Lib) (r : Raising) : Lib :=
  match linkOf g r.source with
  | .none => l
  | .scanStation => if l.start.state = .ready && !l.place.doorOpen then l.scan g else l
  | .queueClean =>
    match r.drive with
    | some d => if l.serving then l.queueClean g d else l
    | none => l
  | .auditSpan =>
    match r.columns with
    | some c =>
      if l.serving && !l.auditStands c && l.entryFree then (l.createAudit g c true).2 else l
    | none => l
  | .postNotice => l.postNoticeFor g r
  | .raiseAttention => (l.setCause causeLinkedEvent).addLinked r.source

/-! ## Entries offered (R65, R184) -/

/-- Makes the start-up audits that found no entry, in ascending columns (R184). -/
def makeRuns (g : Settings) : List Span → Lib → Lib
  | [], l => { l with start := { l.start with runs := [] } }
  | c :: cs, l =>
    if l.entryFree then
      let x := l.createAudit g c false
      makeRuns g cs { x.2 with start := { x.2.start with audits := x.2.start.audits ++ [x.1] } }
    else { l with start := { l.start with runs := c :: cs } }

/-- Offers the free entries: the start-up audits first, then a RETURN for each AUTOMATED drive left with a
reel, the lowest first (R65, R184). -/
def offerEntries (g : Settings) (l : Lib) : Lib :=
  let l := l.makeRuns g l.start.runs
  l.orphanDrives.foldl (fun l d => l.returnFromDrive g d) l

/-! ## Settling a step -/

/-- One thing still to be done, in the order of log 15. -/
def settleOne (g : Settings) (l : Lib) : Lib :=
  if l.notes.entryFreed then
    { l with notes := { l.notes with entryFreed := false } }.offerEntries g
  else if l.notes.placeFreed then l.offerPlaces g
  else
    match l.notes.offers with
    | d :: ds => { l with notes := { l.notes with offers := ds } }.offerManual g d
    | [] =>
      let l := l.dispatch g Config.requestEntries
      { l with notes := { l.notes with wake := false } }

/-- Nothing but raisings is left to be done. -/
def quiet (n : Notes) : Bool := !n.entryFreed && !n.placeFreed && n.offers.isEmpty && !n.wake

/-- Does what is left to be done, one thing after another. -/
def quiesce (g : Settings) : Nat → Lib → Lib
  | 0, l => l
  | fuel + 1, l => if quiet l.notes then l else quiesce g fuel (l.settleOne g)

/-- The raisings in ascending source number (R163); those of one source as they were raised (log 48). -/
def bySource (rs : List Raising) : List Raising := sortBy (fun x y => x.source.number < y.source.number) rs

/-- Rounds of settling: what is left to be done, then the actions of the sources raised (R163). -/
def rounds (g : Settings) : Nat → Lib → Lib
  | 0, l => l
  | fuel + 1, l =>
    let l := l.quiesce g 64
    match bySource l.notes.raised with
    | [] => l
    | rs => rounds g fuel (rs.foldl (fun l r => l.act g r)
        { l with notes := { l.notes with raised := [] } })

/-- The end of a step: everything the event brings about is done, and no note is left (log 15). -/
def settle (g : Settings) (l : Lib) : Lib := { l.rounds g 16 with notes := .none }

end Lib
end Sys2Proof.Machine
end

