-- ==== Sys2Proof/Machine/StartOps.lean ====
section
/-! DEFINITION. Homing, the clearing of a format, and the entry of the library into READY (R183 to R188). -/

namespace Sys2Proof.Machine

/-- The nearest column of a range (R124). -/
def Span.clamp (r : Span) (c : Nat) : Nat := if c < r.lo then r.lo else if r.hi < c then r.hi else c

namespace Lib

/-- The static reach of an accessor (R103). -/
def staticReach (l : Lib) : AccId → Span
  | .a => { lo := 0, hi := l.lastCol - 1 }
  | .b => { lo := 1, hi := l.lastCol }

/-- Columns beyond the static reach on the present geometry are taken as the nearest of it (R124). The column of a
YIELD still in hand is none of those R124 names, and stays (log 63). -/
def clampAcc (x : AccId) (l : Lib) : Lib :=
  let c := (l.staticReach x).clamp
  l.updAcc x fun v =>
    { v with pos := c v.pos, span := { lo := c v.span.lo, hi := c v.span.hi }
             state := match v.state with
               | .faulted why n => .faulted why (c n)
               | s => s }

/-- Gives an accessor its HOME order, at once when it has no order in hand (R183, R188). -/
def startHoming (g : Settings) (x : AccId) (l : Lib) : Lib :=
  if l.isFaulted x then l.updAcc x fun v => { v with homing := .ended }
  else
    let l := l.updAcc x fun v => { v with homing := .due }
    if (l.acc x).state = .idle then l.promote g x else l

/-- The HOME order as the frozen current order of a HALTED accessor (R182). -/
def freezeHoming (x : AccId) (l : Lib) : Lib :=
  l.updAcc x fun v => { v with current := some (plainOrder .home), frozen := true, homing := .underWay }

/-- Both accessors have ended their homing (R184, R188). -/
def homed (l : Lib) : Bool := l.rail.accA.homing = .ended && l.rail.accB.homing = .ended

/-- The cell map of a new geometry (R32). -/
def freshCells (p : PendingDef) : List Cell :=
  (List.range (p.lib.columns * p.lib.perColumn)).map fun n =>
    if p.disabled.contains n then .disabled else .empty none

/-- A drive record after a format to `columns` columns (R63). The limits of a drive that loses its definition are
stopped (log 47). -/
def formatDrive (columns : Nat) (v : Drive) : Drive :=
  let reel := match v.reel with
    | .recorded _ => .unrecorded
    | r => r
  let lost : Bool := match v.defn with
    | some def_ => (match def_.kind with
        | .automated c => columns ≤ c
        | .manual => false)
    | none => false
  let v := { v with reel := reel, cleanDue := false
                    defn := v.defn.map fun def_ =>
                      { def_ with sinceClean := 0, lifeMounts := 0, lifeSeconds := 0 } }
  if lost then { v with defn := none, state := .offline, threadLeft := none, unloadLeft := none } else v

/-- An OUTBOUND slot is REJECTED at a format, since its serial is no longer catalogued (R33). -/
def formatSlot : Slot → Slot
  | .outbound label => .rejected label .unknownLabel
  | s => s

/-- Posts afresh the notices of the slots that are REJECTED (R145). -/
def postSlots (g : Settings) (l : Lib) : Lib :=
  ((List.range Config.stationSlots).foldl (fun l k => match l.slot k with
    | .rejected label why => l.postRejected g k label why
    | _ => l) l).updateRemove g

/-- Steps 1 to 4 of a format: the image invalidated, cleared and written again with its header, and the
accessors homed (R188). A FAULTED drive that loses its definition keeps its DRIVE-ATTENTION notice (log 39); the
notices of R145 are withdrawn one after another (log 59). -/
def formatClear (g : Settings) (l : Lib) : Lib :=
  match l.store.pendingDef with
  | none => l
  | some p =>
    let l := { l with
      store := { mark := true, checked := true, lib := p.lib, pendingDef := none }
      cat := { l.cat with vols := [], scratch := [] }
      acct := { l.acct with accounts := [] }
      place := { l.place with cells := freshCells p, slots := l.place.slots.map formatSlot }
      drives := l.drives.map (formatDrive p.lib.columns)
      start := { l.start with clearing := false } }
    let l := l.withdrawWhere g fun q => q.kind.clearedByFormat
    let l := (l.postSlots g).evalLow g
    let l := (l.clampAcc .a).clampAcc .b
    (l.startHoming g .a).startHoming g .b

/-- The tags of HELD requests in ascending arrival sequence (R71). -/
def heldTags (l : Lib) : List Nat :=
  (sortBy (fun x y => x.arrival < y.arrival) (l.reqs.live.filter fun r => r.state = .held)).map Request.tag

/-- Some slot is INBOUND (R36). -/
def anyInbound (l : Lib) : Bool := l.place.slots.any fun s => match s with
  | .inbound _ => true
  | _ => false

/-- The entry of the library into READY (R185). -/
def enterReady (g : Settings) (l : Lib) : Lib :=
  let l := { l with start := { l.start with state := .ready, limit := .stopped } }
  let l := l.heldTags.foldl (fun l t => l.leaveHeld g t) l
  let l := if l.anyInbound && !l.place.doorOpen then l.scan g else l
  let l := l.setCause causeStartupComplete
  let l := (drivesWhere fun d => (l.drive d).cleanDue).foldl (fun l d => l.raiseDrive .cleaningDue d) l
  l.wake

/-- The columns of a list of cells, ascending and once each (R184). -/
def columnsOf (l : Lib) (cells : List Nat) : List Nat :=
  (List.range l.columns).filter fun c => cells.any fun n => l.cellCol n = c

/-- Runs of consecutive columns of an ascending list (R184). -/
def runsOf : List Nat → List Span
  | [] => []
  | c :: cs =>
    match runsOf cs with
    | [] => [Span.point c]
    | r :: rs => if r.lo = c + 1 then { lo := c, hi := r.hi } :: rs else Span.point c :: r :: rs

/-- The beginning of the audit phase (R184). -/
def beginAudits (g : Settings) (l : Lib) : Lib :=
  let columns := if l.store.lib.fullStart then List.range l.columns else l.columnsOf l.start.awaited
  let l := { l with start := { l.start with phase := .audit, audits := [] } }
  l.makeRuns g (runsOf columns)

/-- The reconcile queries are all answered or expired (R180). -/
def reconciled (l : Lib) : Bool :=
  l.drives.all (fun v => v.queryLeft.isNone)
    && [AccId.a, AccId.b].all fun x => !(l.acc x).query.any fun q => q.purpose = .reconcile

/-- The audits of start-up have all reached DONE (R184). -/
def auditsDone (l : Lib) : Bool :=
  l.start.runs.isEmpty && l.start.audits.all fun t => (l.req? t).isNone

end Lib

/-! ## One step -/

/-- A step begins with no message sent and nothing noted. -/
def Lib.begin (l : Lib) : Lib := { l with out := [], notes := .none }

/-- The records as an event finds them: steps 1 to 3 of a format in hand are made before any event is
taken (R188). -/
def Lib.opened (g : Settings) (l : Lib) : Lib :=
  let l := l.begin
  if l.start.clearing then (l.formatClear g).settle g else l

/-- One event of the floor, the panel or a timer: after a power-fail warning nothing is taken (R176); else
the records change, and the step is settled. -/
def event (f : Settings → Lib → Lib) (s : State) : State :=
  if s.set.warned then s
  else { s with lib := (f s.set (s.lib.opened s.set)).settle s.set }

/-- A step in which a message is discarded: nothing is sent, and nothing else changes (R206, R207). -/
def quietStep (s : State) : State := if s.set.warned then s else { s with lib := s.lib.begin }

/-- What applying a host command comes to: the settings and records it leaves, and how it ends, told from
the records as the whole step leaves them (R196). -/
structure Applied where
  set : Settings
  lib : Lib
  reply : Lib → Result

/-- The port after a command has been applied: the sense record is set at CHECK, cleared at GOOD, and left
at BUSY (R198). -/
def Port.ended (r : Result) (p : Port) : Port :=
  match r with
  | .good _ => { p with sense := none, last := some r }
  | .check c s => { p with sense := some { code := c, subject := s }, last := some r }
  | .busy => { p with last := some r }

/-- A host command applied as one step (R196). -/
def hostStep (f : Settings → Lib → Applied) (s : State) : State :=
  if s.set.warned then s
  else
    let a := f s.set s.lib.begin
    let l := a.lib.settle a.set
    { s with set := a.set, lib := l, port := s.port.ended (a.reply l) }

namespace Applied

/-- The command ends GOOD with the data-in given. -/
def good (g : Settings) (l : Lib) (data : List Field) : Applied := ⟨g, l, fun _ => .good data⟩

/-- The command ends CHECK and changes nothing. -/
def refuse (g : Settings) (l : Lib) (c : Sense) (s : Subject) : Applied := ⟨g, l, fun _ => .check c s⟩

/-- The command ends BUSY and changes nothing. -/
def busy (g : Settings) (l : Lib) : Applied := ⟨g, l, fun _ => .busy⟩

end Applied

/-- When the library state lets a command be taken (R177). -/
inductive Gate
  | always | unformattedToo | normal
  deriving DecidableEq, Repr

/-- Applies a command through the gate of the library state (R177); `subject` is the subject of a refusal
with NOT-FORMATTED (log 14). -/
def gated (who : Gate) (subject : Subject) (g : Settings) (l : Lib) (k : Applied) : Applied :=
  match l.start.state with
  | .formatting => if who = .always then k else .busy g l
  | .unformatted => if who = .normal then .refuse g l .notFormatted subject else k
  | _ => k

/-- Makes the checks in order; the first that fails ends the command (R16, R67, R147). -/
def checks (cs : List (Bool × Sense × Subject)) (g : Settings) (l : Lib) (k : Applied) : Applied :=
  match cs with
  | [] => k
  | (ok, c, s) :: rest => if ok then checks rest g l k else .refuse g l c s

end Sys2Proof.Machine
end

