-- ==== Sys2Proof/Machine/Station.lean ====
section
/-! DEFINITION. The station and the service door: their reports (R34, R35, R38, R39, R107, R119, R120), and
the commands Scan Station and Set Cell (R31, R36). -/

namespace Sys2Proof.Machine

namespace Lib

/-! ## Removal from a slot (R38, R113) -/

/-- The claimed reel of a slot has gone before its pick: the order for the claim is withdrawn when staged,
and abandoned when current. -/
def dropClaimOrder (g : Settings) (t : Nat) (l : Lib) : Lib :=
  if (l.stagedFor? t).isSome then l.dropStaged g t
  else
    match l.currentFor? t with
    | none => l
    | some x =>
      match (l.acc x).current with
      | some o => if o.serves = some t && !o.carries then (l.releaseReservations g o t).abandon g x else l
      | none => l

/-- What the claim's request does when its reel is taken out of the slot (R38; its source goes, log 41). -/
def claimRemoved (g : Settings) (t : Nat) (l : Lib) : Lib :=
  match l.req? t with
  | none => l
  | some r =>
    let s := r.serial?
    let l := match s with
      | some s =>
        let l := if r.kind = Kind.imp then l.clearHome g s (.empty none) else l
        l.moveVol g s .shelf
      | none => l
    if r.kind = Kind.imp || r.cancelPending then l.complete g t .cancelled
    else
      let l := (l.setReqState g t .manual).updReq t fun q => { q with drive := none, source := none }
      l.postRequest g .stationInsert t (l.requestSubject t none) 0

/-- A removal from an OUTBOUND slot: a volume in STATION becomes SHELF (R38). -/
def outboundRemoved (g : Settings) (k : Nat) (label : Option Serial) (l : Lib) : Lib :=
  match label with
  | some s =>
    if (l.vol? s).any (fun v => v.state = .station k) then l.moveVol g s .shelf else l
  | none => l

/-- A destination slot is found filled: the claim moves to the lowest EMPTY slot, or the claiming order is
withdrawn, or keeps its reel and waits for a place (R39, R112, R113; not yet picked, log 22; set aside behind a
YIELD with its reel, log 52). -/
def claimMoved (g : Settings) (t : Nat) (l : Lib) : Lib :=
  match l.freeSlot? with
  | some k =>
    let l := l.setSlot g k (.place t)
    if (l.stagedFor? t).isSome then
      match l.stagedFor? t with
      | some x => l.updAcc x fun v => { v with staged := v.staged.map (redirect (some (.slot k))) }
      | none => l
    else
      match l.currentFor? t with
      | none => l
      | some x =>
        if (l.acc x).current.any (fun o => o.serves = some t) then l.retarget g x (.slot k)
        else l.updAcc x fun v => { v with staged := v.staged.map (redirect (some (.slot k))) }
  | none =>
    if (l.stagedFor? t).isSome then l.withdrawFor g t
    else
      match l.currentFor? t with
      | none => l
      | some x =>
        match (l.acc x).current with
        | some o =>
          if o.serves = some t then
            if o.carries then l.holdReel g x
            else ((l.releaseReservations g o t).abandon g x).backToList g t
          else l.updAcc x fun v => { v with staged := v.staged.map (redirect none) }
        | none => l

/-! ## SLOT (R35) -/

/-- The label a slot records, where it has one. -/
def slotLabel? : Slot → Option (Option Serial)
  | .inbound l => some l
  | .pick l _ => some l
  | .outbound l => some l
  | .rejected l _ => some l
  | .empty => none
  | .place _ => none

/-- Takes a SLOT report (R35). An unreadable report always counts as another label (log 31). -/
def slotReport (g : Settings) (k : Nat) (seen : Reading) (l : Lib) : Lib :=
  match seen with
  | .empty =>
    match l.slot k with
    | .empty => l
    | .place _ => l
    | .inbound _ => l.setSlot g k .empty
    | .pick _ t => ((l.setSlot g k .empty).dropClaimOrder g t).claimRemoved g t
    | .outbound label => (l.setSlot g k .empty).outboundRemoved g k label
    | .rejected _ _ => l.setSlot g k .empty
  | .filled raw =>
    let label := normLabel raw
    let old := l.slot k
    if label.isSome && slotLabel? old = some label then l
    else
      let l := l.setSlot g k (.inbound label)
      match old with
      | .pick _ t => (l.dropClaimOrder g t).claimRemoved g t
      | .place t => l.claimMoved g t
      | .outbound was => l.outboundRemoved g k was
      | _ => l

/-! ## The station door (R34, R107) -/

/-- DOOR-OPENED: an accessor whose current order still has a station step to do is stopped in WAIT-STATION
(R107); a frozen order is left as it is. -/
def stopAtStation (x : AccId) (l : Lib) : Lib :=
  if (l.acc x).state = .moving && (l.acc x).current.any Order.stationLeft then
    (l.updAcc x fun v => { v with state := .waitStation, timer := none }).send (.halt x)
  else l

def doorOpened (_ : Settings) (l : Lib) : Lib :=
  if l.place.doorOpen then l
  else (({ l with place := { l.place with doorOpen := true } }).stopAtStation .a).stopAtStation .b

/-- An accessor in WAIT-STATION goes on (R107). -/
def goOn (g : Settings) (x : AccId) (l : Lib) : Lib :=
  if (l.acc x).state = .waitStation then l.sendOrder g x else l

def doorClosed (g : Settings) (l : Lib) : Lib :=
  if l.place.doorOpen then
    let l := { l with place := { l.place with doorOpen := false } }
    (((l.updateLock.goOn g .a).goOn g .b).raisePlain .stationDoorClosed).wake
  else l

/-! ## The service door (R119, R120, R123) -/

/-- The accessor is given HALT and its current order is frozen (R119). A YIELD ahead of an order set aside
with a reel is dropped, and that order is frozen instead (R105). -/
def haltAcc (x : AccId) (l : Lib) : Lib :=
  if l.isFaulted x || (l.acc x).state = .halted then l
  else
    let v := l.acc x
    let order := match v.staged with
      | some o => some o
      | none => v.current
    let query := v.query.filter fun q => q.purpose = .reconcile
    (l.updAcc x fun v =>
      { v with state := .halted, current := order, staged := none, frozen := order.isSome, need := none
               query := query, timer := if query.isSome then v.timer else none }).send (.halt x)

/-- The range over the reserved spans of the accessors given (R119). -/
def spanOver (l : Lib) (xs : List AccId) : Option Span :=
  xs.foldl (fun s x =>
    let v := (l.acc x).span
    match s with
    | none => some v
    | some s => some { lo := min s.lo v.lo, hi := max s.hi v.hi }) none

/-- An accessor still HALTED by an earlier opening: a resume reply outstanding is no longer awaited (R123). -/
def forgetResume (x : AccId) (l : Lib) : Lib :=
  if (l.acc x).state = .halted && (l.acc x).query.any (fun q => q.purpose = .resume) then
    l.updAcc x fun v => { v with query := none, timer := none }
  else l

/-- The step timer of an outstanding reconcile query is started again at a halt, of an accessor HALTED already
too (R123, R182; log 55). -/
def restartQuery (g : Settings) (x : AccId) (l : Lib) : Lib :=
  if (l.acc x).query.any (fun q => q.purpose = .reconcile) then
    l.updAcc x fun v => { v with timer := some g.timers.step }
  else l

/-- The interlock is set (R119, R123). -/
def interlock (g : Settings) (l : Lib) : Lib :=
  let halting := [AccId.a, AccId.b].filter fun x => !l.isFaulted x && (l.acc x).state ≠ .halted
  let l := (l.withdrawStaged g .a).withdrawStaged g .b
  let l := { l with rail := { l.rail with haltedSpan := l.spanOver halting, firstWaiter := none } }
  let l := ((l.forgetResume .a).forgetResume .b)
  let l := halting.foldl (fun l x => l.haltAcc x) l
  let l := (l.restartQuery g .a).restartQuery g .b
  ({ l with rail := { l.rail with interlock := true } }).updateLock

/-- OPENED from the service door (R119, R120, R123). -/
def serviceOpened (g : Settings) (l : Lib) : Lib :=
  if l.rail.serviceOpen then l
  else
    let l := { l with rail := { l.rail with serviceOpen := true } }
    let l := if l.rail.interlock then l else l.interlock g
    (l.setCause causeInterlock).postNotice g .interlock .nothing 0

/-- CLOSED from the service door (R120). -/
def serviceClosed (g : Settings) (l : Lib) : Lib :=
  if l.rail.serviceOpen then
    let l := { l with rail := { l.rail with serviceOpen := false } }
    (l.withdrawNotice g .interlock fun _ => true).raiseColumns .serviceDoorClosed l.rail.haltedSpan
  else l

end Lib

/-! ## The meanings of the reports -/

/-- DOOR_OPENED (R34). -/
def execDoorOpened (s : State) : Host.Outcome State Fault Refusal := .next (event Lib.doorOpened s)

/-- DOOR_CLOSED (R34). -/
def execDoorClosed (s : State) : Host.Outcome State Fault Refusal := .next (event Lib.doorClosed s)

/-- SLOT (R35); a slot number out of range makes the message one that is discarded (R207), but in FORMATTING makes
the clearing first (log 7). -/
def execSlot (k : Nat) (seen : Reading) (s : State) : Host.Outcome State Fault Refusal :=
  .next (event (fun g l => if k < Config.stationSlots then l.slotReport g k seen else l) s)

/-- SERVICE_DOOR_OPENED (R119). -/
def execServiceDoorOpened (s : State) : Host.Outcome State Fault Refusal := .next (event Lib.serviceOpened s)

/-- SERVICE_DOOR_CLOSED (R120). -/
def execServiceDoorClosed (s : State) : Host.Outcome State Fault Refusal := .next (event Lib.serviceClosed s)

/-- FLOOR_MESSAGE_DISCARDED (R207): a discarded message changes nothing. -/
def execFloorMessageDiscarded (s : State) : Host.Outcome State Fault Refusal := .next (quietStep s)

/-! ## Scan Station and Set Cell -/

/-- A flag as one byte. -/
def flagField (b : Bool) : Field := { width := 1, value := if b then 1 else 0 }

/-- An optional number: its presence flag, then its bytes, zero when absent (log 11). -/
def optField (width : Nat) (v : Option Nat) : List Field :=
  [flagField v.isSome, { width := width, value := v.getD 0 }]

/-- A serial with its presence flag (log 11). -/
def optSerial (s : Option Serial) : List Field := optField 6 (s.map Serial.key)

/-- A slot record as Scan Station returns it (R36): state, label, direction, claim and reject reason, each with a
presence flag, that of the state always set; an unreadable label is present with its bytes zero (log 11). -/
def slotFields (x : Slot) : List Field :=
  let state : Nat := match x with
    | .empty => 0
    | .inbound _ => 1
    | .pick _ _ => 2
    | .place _ => 2
    | .outbound _ => 3
    | .rejected _ _ => 4
  let label := (Lib.slotLabel? x).map fun l => (l.map Serial.key).getD 0
  let direction : Option Nat := match x with
    | .pick _ _ => some 1
    | .place _ => some 2
    | _ => none
  let claim : Option Nat := match x with
    | .pick _ t => some t
    | .place t => some t
    | _ => none
  let why : Option Nat := match x with
    | .rejected _ r => some r.code
    | _ => none
  optField 1 (some state) ++ optField 6 label ++ optField 1 direction ++ optField 2 claim
    ++ optField 1 why

/-- The data-in of Scan Station (R36): the door state (1 for OPEN) and the lock state (1 for LOCKED), codes of
log 11, and the slot records. -/
def stationFields (l : Lib) : List Field :=
  [flagField l.place.doorOpen, flagField l.place.locked] ++ l.place.slots.flatMap slotFields

/-- Scan Station (R36). -/
def cmdScanStation (g : Settings) (l : Lib) : Applied :=
  gated .normal .none g l
    (checks [(l.start.state ≠ .starting, .notReady, .none), (!l.place.doorOpen, .doorOpen, .none)] g l
      { set := g, lib := l.scan g, reply := fun l => .good (stationFields l) })

def execScanStation (s : State) : Host.Outcome State Fault Refusal := .next (hostStep cmdScanStation s)

/-- Cell state codes (R28). -/
def Cell.code : Cell → Nat
  | .empty _ => 1
  | .filled _ => 2
  | .awaited _ => 3
  | .foreign => 4
  | .disabled => 5

/-- The volume a cell names (R28). -/
def Cell.volume? : Cell → Option Serial
  | .filled s => some s
  | .awaited s => some s
  | _ => none

/-- The reservation mark of a cell, or 0 (R31). -/
def Cell.mark : Cell → Nat
  | .empty (some t) => t
  | _ => 0

/-- The data-in of Set Cell (R31). -/
def cellFields (l : Lib) (n : Nat) : List Field :=
  let c := l.cell n
  [{ width := 2, value := n }, { width := 1, value := c.code }] ++ optSerial c.volume?
    ++ [{ width := 2, value := c.mark }]

/-- The cell an action of Set Cell leaves (R31). -/
def cellAfter (action : Nat) (c : Cell) : Cell :=
  if action = 1 then .disabled else if action = 2 then .empty none else c

/-- Set Cell (R31). -/
def cmdSetCell (n action : Nat) (g : Settings) (l : Lib) : Applied :=
  gated .normal .none g l
    (checks
      [(n < l.place.cells.length && action ≤ 2, .invalidField, .none),
       (action ≠ 1 || l.cell n = .foreign || l.cell n = .empty none, .cellState, .cell n),
       (action ≠ 2 || l.cell n = .disabled, .cellState, .cell n)] g l
      { set := g, lib := l.setCell n (cellAfter action (l.cell n)), reply := fun l => .good (cellFields l n) })

def execSetCell (n action : Nat) (s : State) : Host.Outcome State Fault Refusal :=
  .next (hostStep (cmdSetCell n action) s)

end Sys2Proof.Machine
end

