-- ==== Sys2Proof/Machine/Accessors.lean ====
section
/-! DEFINITION. The accessors' reports (R109 to R118, R122, R182), the step limit (R108), and the commands
Restore Accessor and Resume Library (R117, R121). -/

namespace Sys2Proof.Machine

/-- The reading with a label that is not a valid serial taken as unreadable (R42, R209). -/
def normReading : Reading → Reading
  | .empty => .empty
  | .filled raw => .filled (normLabel raw)

namespace Lib

/-! ## Which reports are taken (R102, R209) -/

/-- The current order, when a report names its number as sent (R102). -/
def taken? (l : Lib) (x : AccId) (n : Nat) : Option Order :=
  (l.acc x).current.filter fun o => o.number = some n

/-- Sets the position of an accessor (R102). -/
def setPos (x : AccId) (c : Nat) (l : Lib) : Lib := l.updAcc x fun v => { v with pos := c }

/-- Changes the step progress of the current order (R101). -/
def setProgress (x : AccId) (p : Progress) (l : Lib) : Lib :=
  l.updAcc x fun v => { v with current := v.current.map fun o => { o with progress := p } }

/-- Starts the step timer again when a step ends and another is left, on an accessor that is moving (R108). -/
def restartTimer (g : Settings) (x : AccId) (l : Lib) : Lib :=
  l.updAcc x fun v => { v with timer := if v.state = .moving then some g.timers.step else v.timer }

/-- The pick is done and the reel is in the gripper (R109). -/
def pickDone (g : Settings) (x : AccId) (l : Lib) : Lib := (l.setProgress x .picked).restartTimer g x

/-! ## PICKED (R109) -/

/-- The request of an ended order completes with the code given, or the one fixed earlier. -/
def finish (g : Settings) (t : Option Nat) (c : Code) (l : Lib) : Lib :=
  match t with
  | some t => l.complete g t c
  | none => l

/-- PICKED at a cell (R109): a matching label, or a reel put back. A cell that audits have meanwhile made FILLED
with another volume stays as it is (log 21). -/
def pickedCell (g : Settings) (x : AccId) (o : Order) (n : Nat) (label : Option Serial) (l : Lib) : Lib :=
  match l.cargoOf o.serves with
  | .volume s =>
    if label = some s then
      let l := if l.cell n = .filled s then l.setCell n (.awaited s) else l
      (l.moveVol g s (.inTransit x)).pickDone g x
    else
      let l := l.declareMissing g s .foreign
      let l := if l.cell n = .empty none then l.setCell n .foreign else l
      (l.finish g o.serves .volumeMissing).endOrder g x
  | _ => l

/-- PICKED at a slot (R39, R109). -/
def pickedSlot (g : Settings) (x : AccId) (o : Order) (k : Nat) (l : Lib) : Lib :=
  let l := match l.cargoOf o.serves with
    | .volume s => l.moveVol g s (.inTransit x)
    | _ => l
  (l.setSlot g k .empty).pickDone g x

/-- PICKED at a drive (R53, R109). -/
def pickedDrive (g : Settings) (x : AccId) (o : Order) (d : Nat) (l : Lib) : Lib :=
  let l := match l.cargoOf o.serves with
    | .volume s => l.moveVol g s (.inTransit x)
    | _ => l
  let l := if (l.drive d).state = .awaitPick then l.enterIdle g d else l
  l.pickDone g x

def pickedReport (g : Settings) (x : AccId) (n : Nat) (p : Place) (label : Option Serial) (l : Lib) : Lib :=
  match l.taken? x n with
  | some o =>
    match o.kind with
    | .transfer source _ =>
      if o.progress = .notPicked && p = source then
        let l := l.setPos x (l.placeCol x p)
        match p with
        | .cell c => l.pickedCell g x o c (normLabel label)
        | .slot k => l.pickedSlot g x o k
        | .drive d => l.pickedDrive g x o d
        | .gripper _ => l
      else l
    | _ => l
  | none => l

/-! ## PICK-EMPTY (R110) -/

/-- PICK-EMPTY at a cell (R110): the cell becomes EMPTY, also one an audit has made FOREIGN; one that audits have
made FILLED with another volume stays as it is (log 21). -/
def emptyCell (g : Settings) (x : AccId) (o : Order) (n : Nat) (l : Lib) : Lib :=
  let l := match l.cargoOf o.serves with
    | .volume s => l.declareMissing g s (.empty none)
    | _ => l
  let l := if l.cell n = .foreign then l.setCell n (.empty none) else l
  (l.finish g o.serves .volumeMissing).endOrder g x

def emptySlotPick (g : Settings) (x : AccId) (o : Order) (k : Nat) (l : Lib) : Lib :=
  let l := l.setSlot g k .empty
  let l := match o.serves with
    | some t => (l.releaseReservations g o t).claimRemoved g t
    | none => l
  l.endOrder g x

def emptyDrive (g : Settings) (x : AccId) (o : Order) (d : Nat) (l : Lib) : Lib :=
  let l := match l.cargoOf o.serves with
    | .volume s => l.declareMissing g s (.empty none)
    | _ => l
  let l := (l.finish g o.serves .volumeMissing).updDrive d fun v => { v with reel := .none, serving := none }
  let l := (l.enterFaulted g d 0).postAttention g d none
  l.endOrder g x

def pickEmptyReport (g : Settings) (x : AccId) (n : Nat) (p : Place) (l : Lib) : Lib :=
  match l.taken? x n with
  | some o =>
    match o.kind with
    | .transfer source _ =>
      if o.progress = .notPicked && p = source then
        let l := l.setPos x (l.placeCol x p)
        match p with
        | .cell c => l.emptyCell g x o c
        | .slot k => l.emptySlotPick g x o k
        | .drive d => l.emptyDrive g x o d
        | .gripper _ => l
      else l
    | _ => l
  | none => l

/-! ## PLACED (R111) -/

def placedCell (g : Settings) (o : Order) (c : Nat) (l : Lib) : Lib :=
  let l := match l.cargoOf o.serves with
    | .volume s =>
      (l.setCell c (.filled s)).changeVol g s fun v => { v with state := .home, homeCell := some c }
    | _ => l.setCell c .foreign
  l.finish g o.serves .ok

/-- PLACED at a drive: the threading limit, or a cleaning run, begins (R53, R62). The run of a CLEAN that a link reset
has converted begins too, and ends CANCELLED at its return (log 67). -/
def placedDrive (g : Settings) (o : Order) (d : Nat) (l : Lib) : Lib :=
  match o.serves.bind l.req? with
  | some r =>
    match r.serial? with
    | some s =>
      let l := (l.moveVol g s (.onDrive d)).updDrive d fun v => { v with reel := .recorded s }
      if r.kind = .clean then
        let l := l.changeVol g s fun v =>
          { v with mounts := satAdd max16 v.mounts 1, lastMount := some g.clock.day }
        (l.updDrive d fun v => { v with state := .cleaning, unloadLeft := some g.timers.unload }).setReqState g
          r.tag .cleaning
      else
        (l.updDrive d fun v => { v with state := .threading, threadLeft := some g.timers.threading }).setReqState
          g r.tag .threading
    | none => l
  | none => l

/-- PLACED at a slot (R39): OUTBOUND. -/
def placedSlot (g : Settings) (o : Order) (k : Nat) (l : Lib) : Lib :=
  let cargo := l.cargoOf o.serves
  let isEject := (o.serves.bind l.req?).any fun r => r.kind = .eject
  let l := l.setSlot g k (.outbound (cargoLabel cargo))
  let l := match cargo with
    | .volume s =>
      (l.clearHome g s (.empty none)).moveVol g s (if isEject then .station k else .shelf)
    | _ => l
  l.finish g o.serves .ok

/-- PLACED (R111), once the pick has been taken; before that it is stale (log 60). -/
def placedReport (g : Settings) (x : AccId) (n : Nat) (p : Place) (l : Lib) : Lib :=
  match l.taken? x n with
  | some o =>
    match o.kind with
    | .transfer _ (some dest) =>
      if o.carries && p = dest then
        let l := l.setPos x (l.placeCol x p)
        let l := match p with
          | .cell c => l.placedCell g o c
          | .slot k => l.placedSlot g o k
          | .drive d => l.placedDrive g o d
          | .gripper _ => l
        l.endOrder g x
      else l
    | _ => l
  | none => l

/-! ## PLACE-BLOCKED (R112) -/

def blockedCell (g : Settings) (x : AccId) (o : Order) (c : Nat) (l : Lib) : Lib :=
  let l := match l.cargoOf o.serves with
    | .volume s => l.clearHome g s .foreign
    | _ => l
  ((l.setCell c .foreign).decideAs false x).retargetOrHold g x

/-- PLACE-BLOCKED at a drive (R53, R112): the destination is decided as for a return. -/
def blockedDrive (g : Settings) (x : AccId) (o : Order) (d : Nat) (l : Lib) : Lib :=
  let l := l.updDrive d fun v => { v with reel := .none, serving := none }
  let l := (l.enterFaulted g d 0).postAttention g d none
  let l := match o.serves with
    | some t => ((l.fixCode t .driveFault).setReqState g t .returning).dropDrive t
    | none => l
  (l.decideAs true x).retargetOrHold g x

def blockedSlot (g : Settings) (o : Order) (k : Nat) (l : Lib) : Lib :=
  let l := l.setSlot g k (.inbound none)
  match o.serves with
  | some t => l.claimMoved g t
  | none => l

/-- PLACE-BLOCKED (R112), once the pick has been taken; before that it is stale (log 60). The timer stops, of an
outstanding resume query too (log 53). -/
def placeBlockedReport (g : Settings) (x : AccId) (n : Nat) (p : Place) (l : Lib) : Lib :=
  match l.taken? x n with
  | some o =>
    match o.kind with
    | .transfer _ (some dest) =>
      if o.carries && p = dest then
        let l := (l.setPos x (l.placeCol x p)).setProgress x .blocked
        let l := l.updAcc x fun v => { v with timer := none }
        match p with
        | .cell c => l.blockedCell g x o c
        | .slot k => l.blockedSlot g o k
        | .drive d => l.blockedDrive g x o d
        | .gripper _ => l
      else l
    | _ => l
  | none => l

/-! ## Column scans and moves (R42, R43, R86, R114) -/

/-- A found label is taken in where it can be (R43). -/
def takeIn (g : Settings) (n : Nat) (label : Option Serial) (l : Lib) : Lib :=
  match label with
  | none => l.setCell n .foreign
  | some s =>
    match l.vol? s with
    | some v =>
      if (v.state = .shelf || v.state = .missing) && v.holder.isNone then
        (l.setCell n (.filled s)).changeVol g s fun v => { v with state := .home, homeCell := some n }
      else l.setCell n .foreign
    | none =>
      if l.store.lib.autoEnter && l.catalogueRoom then
        ((l.setCell n (.filled s)).addVol (l.autoVolume s .home (some n))).syncScratch g s
      else l.setCell n .foreign

/-- What a CELL-SEEN does to the records (R42). -/
def cellFound (g : Settings) (n : Nat) (seen : Reading) (l : Lib) : Lib :=
  match l.cell n, seen with
  | .filled s, .empty => l.loseVolume g s (.empty none)
  | .filled s, .filled label => if label = some s then l else l.loseVolume g s .foreign
  | .empty none, .filled label => l.takeIn g n label
  | .foreign, .empty => l.setCell n (.empty none)
  | .foreign, .filled label => l.takeIn g n label
  | _, _ => l

def cellSeenReport (g : Settings) (x : AccId) (n cell column : Nat) (seen : Reading) (l : Lib) : Lib :=
  match l.taken? x n with
  | some o =>
    match o.kind with
    | .scan c =>
      if cell < l.place.cells.length && l.cellCol cell = c && column = c then
        ((l.setPos x column).restartTimer g x).cellFound g cell (normReading seen)
      else l
    | _ => l
  | none => l

/-- The AUDIT's next column, or its end (R86). -/
def auditColumnDone (g : Settings) (t : Nat) (l : Lib) : Lib :=
  match l.req? t with
  | none => l
  | some r =>
    match r.cursor with
    | some c =>
      let l := l.updReq t fun q => { q with cursor := some { c with next := c.next + 1 } }
      if c.last < c.next + 1 || r.cancelPending then l.complete g t .ok else l.enterQueued g t
    | none => l

def scanDoneReport (g : Settings) (x : AccId) (n column : Nat) (l : Lib) : Lib :=
  match l.taken? x n with
  | some o =>
    if o.kind = .scan column then
      let l := l.setPos x column
      let l := match o.serves with
        | some t => l.auditColumnDone g t
        | none => l
      l.endOrder g x
    else l
  | none => l

/-- MOVE-DONE (R183, R209): a column that is not the YIELD's target, or the park column of a HOME, makes the
report stale. -/
def moveDoneReport (g : Settings) (x : AccId) (n column : Nat) (l : Lib) : Lib :=
  match l.taken? x n with
  | some o =>
    match o.kind with
    | .yield c => if column = c then (l.setPos x column).endOrder g x else l
    | .home =>
      if column = l.park x then
        ((l.setPos x column).updAcc x fun v => { v with homing := .ended }).endOrder g x
      else l
    | _ => l
  | none => l

/-! ## FAULT and the step limit (R108, R115) -/

/-- FAULT (R115); one taken while FAULTED records its code, as the cause REPORTED (log 43). -/
def faultReport (g : Settings) (x : AccId) (column code : Nat) (l : Lib) : Lib :=
  match (l.acc x).state with
  | .faulted _ c => l.updAcc x fun v => { v with state := .faulted (.reported code) c }
  | _ => (l.setPos x column).faultAcc g x (.reported code) (some column)

/-- The step timer of an accessor expires (R108, R118, R122, R182). -/
def stepExpired (g : Settings) (x : AccId) (l : Lib) : Lib :=
  if isDue (l.acc x).timer then
    if l.isFaulted x then l.updAcc x fun v => { v with query := none, timer := none }
    else l.faultAcc g x .timeout none
  else l

/-! ## GRIPPER (R118, R122, R182) -/

/-- The RETURN-READY request whose reel is in this gripper (R96, R122), or a QUEUED one whose order was abandoned
with its reel picked (R105, log 20). -/
def gripperReturn? (l : Lib) (x : AccId) : Option Request :=
  l.reqs.live.find? fun r => r.state.inList && r.source = some (.gripper x)

/-- The reel in the gripper is none the records know: V becomes MISSING, and a standing RETURN of the
gripper's reel completes (R118, R182, log 23). -/
def gripperLost (g : Settings) (x : AccId) (l : Lib) : Lib :=
  let l := match l.volInTransit? x with
    | some v => l.declareMissing g v.serial (.empty none)
    | none => l
  match l.gripperReturn? x with
  | some r => l.complete g r.tag .volumeMissing
  | none => l

/-- The standing RETURN, when it is of the reel just read (log 23). -/
def returnStands (l : Lib) (x : AccId) (label : Option Serial) : Bool :=
  (l.gripperReturn? x).any fun r => cargoLabel r.cargo = label

/-- V, when the label read is V's (R118, R182). -/
def matchedInTransit (l : Lib) (x : AccId) (label : Option Serial) : Option Serial :=
  match l.volInTransit? x with
  | some v => if label = some v.serial then some v.serial else none
  | none => none

/-- Settles the records by what the gripper holds (R118, R182); none when a RETURN is needed and no request
entry is free. -/
def settleGripper (g : Settings) (x : AccId) (seen : Reading) (l : Lib) : Option Lib :=
  match seen with
  | .empty => some (l.gripperLost g x)
  | .filled label =>
    if l.returnStands x label then some l
    else if !l.entryFree && (l.gripperReturn? x).isNone then none
    else
      match l.matchedInTransit x label with
      | some s => some (l.createReturn g (.volume s) (.gripper x)).2
      | none => some ((l.gripperLost g x).createReturn g (.unknown label) (.gripper x)).2

/-- The reply to Restore Accessor (R118). -/
def restoreReply (g : Settings) (x : AccId) (column : Nat) (seen : Reading) (l : Lib) : Lib :=
  match (l.setPos x column).settleGripper g x seen with
  | none => l
  | some l =>
    let l := l.updAcc x fun v =>
      { v with state := if l.rail.interlock then .halted else .idle, pos := column
               span := Span.point column, frozen := false }
    ((l.withdrawNotice g .accessorFault fun p => p.accessor = some x).contend g (other x)).wake

/-- The reply in the reconcile phase (R182, R183). While the interlock keeps the accessor HALTED its reserved span
stands until the resume reply (log 55). -/
def reconcileReply (g : Settings) (x : AccId) (column : Nat) (seen : Reading) (l : Lib) : Lib :=
  match (l.setPos x column).settleGripper g x seen with
  | none => (l.setPos x column).faultAcc g x .gripper (some column)
  | some l =>
    match (l.acc x).state with
    | .halted =>
      if l.rail.interlock then
        if (l.acc x).current.isNone then l.freezeHoming x else l.updAcc x fun v => { v with homing := .due }
      else
        let l := l.updAcc x fun v =>
          { v with state := .idle, current := none, frozen := false, span := Span.point column }
        l.startHoming g x
    | .idle => (l.updAcc x fun v => { v with span := Span.point column }).startHoming g x
    | _ => l.startHoming g x

/-- A full gripper that a RETURN-READY request expects is taken as an empty one (R122); an unreadable label is the
label of a reel whose own label was unreadable (log 66). -/
def resumeReading (l : Lib) (x : AccId) (seen : Reading) : Reading :=
  match seen with
  | .filled label => if l.returnStands x label then .empty else seen
  | .empty => .empty

/-- A frozen order goes on after the resume (R122). The reserved span begins again at the column reported, of a reel
held with no destination too (log 57). -/
def resumeOrder (g : Settings) (x : AccId) (o : Order) (l : Lib) : Lib :=
  let l := l.updAcc x fun v => { v with frozen := false, state := .moving, span := Span.point v.pos }
  let l := if o.isHeld then l.retargetOrHold g x
    else (l.setProgress x (if o.carries then .picked else .notPicked)).takeUp g x
  l.contend g (other x)

/-- The reply to Resume Library (R122; an empty gripper whose reel a standing RETURN names, log 23; an unreadable
label, log 66). With the held reel gone, the LIBRARY-FULL notice of the accessor goes too (log 54). -/
def resumeReply (g : Settings) (x : AccId) (column : Nat) (seen : Reading) (l : Lib) : Lib :=
  let l := l.setPos x column
  let frozen := if (l.acc x).frozen then (l.acc x).current else none
  let idle (l : Lib) : Lib :=
    (l.updAcc x fun v => { v with state := .idle, frozen := false }).endOrder g x
  match frozen, l.resumeReading x seen with
  | none, .empty => idle l
  | some o, .empty =>
    if o.carries then
      let l := match l.cargoOf o.serves with
        | .volume s => l.declareMissing g s (.empty none)
        | _ => l
      idle ((l.finish g o.serves .volumeMissing).clearHeldNotice g x)
    else l.resumeOrder g x o
  | some o, .filled label =>
    if o.carries && label = cargoLabel (l.cargoOf o.serves) then l.resumeOrder g x o
    else l.faultAcc g x .gripper (some column)
  | none, .filled _ => l.faultAcc g x .gripper (some column)

def gripperReport (g : Settings) (x : AccId) (n column : Nat) (held : Reading) (l : Lib) : Lib :=
  match (l.acc x).query with
  | some q =>
    if q.number = n then
      let l := l.updAcc x fun v =>
        { v with query := none, timer := if v.state = .moving then v.timer else none }
      let seen := normReading held
      match q.purpose with
      | .restore => l.restoreReply g x column seen
      | .resume => l.resumeReply g x column seen
      | .reconcile => l.reconcileReply g x column seen
    else l
  | none => l

/-- A column a report may carry (R207, log 32). -/
def columnOk (l : Lib) (c : Nat) : Bool := c < l.columns

end Lib

/-! ## The meanings of the reports -/

/-- PICKED (R109). -/
def execPicked (x : AccId) (n : Nat) (p : Place) (label : Option Serial) (s : State) :
    Host.Outcome State Fault Refusal := .next (event (fun g l => l.pickedReport g x n p label) s)

/-- PICK_EMPTY (R110). -/
def execPickEmpty (x : AccId) (n : Nat) (p : Place) (s : State) : Host.Outcome State Fault Refusal :=
  .next (event (fun g l => l.pickEmptyReport g x n p) s)

/-- PLACED (R111). -/
def execPlaced (x : AccId) (n : Nat) (p : Place) (s : State) : Host.Outcome State Fault Refusal :=
  .next (event (fun g l => l.placedReport g x n p) s)

/-- PLACE_BLOCKED (R112). -/
def execPlaceBlocked (x : AccId) (n : Nat) (p : Place) (s : State) : Host.Outcome State Fault Refusal :=
  .next (event (fun g l => l.placeBlockedReport g x n p) s)

/-- CELL_SEEN (R42, R114). -/
def execCellSeen (x : AccId) (n cell column : Nat) (seen : Reading) (s : State) :
    Host.Outcome State Fault Refusal :=
  .next (event (fun g l => if l.columnOk column then l.cellSeenReport g x n cell column seen else l) s)

/-- SCAN_DONE (R86, R114). -/
def execScanDone (x : AccId) (n column : Nat) (s : State) : Host.Outcome State Fault Refusal :=
  .next (event (fun g l => l.scanDoneReport g x n column) s)

/-- MOVE_DONE (R114). At a YIELD whose column a format has taken away it is discarded (log 63). -/
def execMoveDone (x : AccId) (n column : Nat) (s : State) : Host.Outcome State Fault Refusal :=
  .next (event (fun g l => if l.columnOk column then l.moveDoneReport g x n column else l) s)

/-- GRIPPER (R118, R122, R182). -/
def execGripper (x : AccId) (n column : Nat) (held : Reading) (s : State) :
    Host.Outcome State Fault Refusal :=
  .next (event (fun g l => if l.columnOk column then l.gripperReport g x n column held else l) s)

/-- ACCESSOR_FAULT_REPORT (R115); its code is 1 to 255 (R209). One out of range changes no record of its own, but
in FORMATTING makes the clearing first (log 7). -/
def execAccessorFaultReport (x : AccId) (_n column code : Nat) (s : State) :
    Host.Outcome State Fault Refusal :=
  .next (event (fun g l =>
    if l.columnOk column && 1 ≤ code && code ≤ 255 then l.faultReport g x column code else l) s)

/-- STEP_LIMIT_EXPIRY (R108). -/
def execStepLimitExpiry (x : AccId) (s : State) : Host.Outcome State Fault Refusal :=
  .next (event (fun g l => l.stepExpired g x) s)

/-! ## Restore Accessor and Resume Library -/

/-- Accessor numbers on the request link (R117). -/
def accOf (n : Nat) : AccId := if n = 0 then .a else .b

/-- Accessor state codes, in the order of R101 (log 11). -/
def AccState.code : AccState → Nat
  | .idle => 0
  | .moving => 1
  | .waitSpan => 2
  | .waitStation => 3
  | .halted => 4
  | .faulted _ _ => 5

/-- The fault cause as a code with its reported code (R117, log 11). -/
def AccState.faultFields : AccState → List Field
  | .faulted why c =>
    let kind : Nat := match why with
      | .reported _ => 1
      | .timeout => 2
      | .gripper => 3
    [{ width := 1, value := kind }, { width := 1, value := why.detail }, { width := 1, value := c }]
  | _ => [{ width := 1, value := 0 }, { width := 1, value := 0 }, { width := 1, value := 0 }]

/-- The data-in of Restore Accessor (R117). -/
def accessorFields (v : Accessor) : List Field :=
  [{ width := 1, value := v.state.code }, { width := 1, value := v.pos }] ++ v.state.faultFields
    ++ [{ width := 1, value := v.span.lo }, { width := 1, value := v.span.hi },
        { width := 1, value := (v.query.map Query.number).getD 0 }]

/-- Restore Accessor (R117). -/
def cmdRestoreAccessor (n : Nat) (g : Settings) (l : Lib) : Applied :=
  gated .normal .none g l
    (checks
      [(n ≤ 1, .invalidField, .none),
       (l.isFaulted (accOf n) && (l.acc (accOf n)).query.isNone, .accessorState, .accessor n)] g l
      { set := g, lib := l.sendQuery g (accOf n) .restore
        reply := fun l => .good (accessorFields (l.acc (accOf n))) })

def execRestoreAccessor (n : Nat) (s : State) : Host.Outcome State Fault Refusal :=
  .next (hostStep (cmdRestoreAccessor n) s)

/-- Resume Library's query of one accessor (R121). -/
def Lib.resumeQuery (g : Settings) (x : AccId) (l : Lib) : Lib :=
  if (l.acc x).state = .halted && (l.acc x).query.isNone then l.sendQuery g x .resume else l

/-- Resume Library (R121). -/
def cmdResumeLibrary (g : Settings) (l : Lib) : Applied :=
  gated .always .none g l
    (checks
      [(!l.rail.serviceOpen, .doorOpen, .none), (l.rail.interlock, .requestState, .none)] g l
      (.good g
        (((({ l with rail := { l.rail with interlock := false } } : Lib).resumeQuery g .a).resumeQuery g .b).wake)
        []))

def execResumeLibrary (s : State) : Host.Outcome State Fault Refusal := .next (hostStep cmdResumeLibrary s)

end Sys2Proof.Machine
end

