-- ==== Sys2Proof/Machine/Drives.lean ====
section
/-! DEFINITION. The drives' reports and limits (R47, R54 to R61, R180, R181) and the drive commands (R45,
R46, R48, R49, R52). -/

namespace Sys2Proof.Machine

namespace Lib

/-! ## Faults (R55, R57, R58) -/

/-- The drive holds a reel. -/
def hasReel (l : Lib) (d : Nat) : Bool := (l.drive d).reel ≠ .none

/-- Fixes the code of the drive's request and posts its DRIVE-ATTENTION: a request prompt, or a notice when
no request waits (R57). A request still in MANUAL, with a wrong reel in the drive, completes (log 24). -/
def faultServing (g : Settings) (d : Nat) (c : Code) (l : Lib) : Lib :=
  match (l.drive d).serving with
  | some t =>
    if (l.req? t).any fun r => r.state = .manual then (l.complete g t c).postAttention g d none
    else (l.fixCode t c).postAttention g d (some t)
  | none => l.postAttention g d none

/-- A drive fails in THREADING (R55). -/
def failThreading (g : Settings) (d code : Nat) (c : Code) (l : Lib) : Lib :=
  let l := (l.enterFaulted g d code).send (.unload d)
  let l := match (l.drive d).serving with
    | some t => l.setReqState g t .rewinding
    | none => l
  l.faultServing g d c

/-- A drive fails in REWINDING (R57). -/
def failRewinding (g : Settings) (d code : Nat) (l : Lib) : Lib :=
  (l.enterFaulted g d code).faultServing g d .driveFault

/-- A drive fails in MOUNTED (R58). -/
def failMounted (g : Settings) (d code : Nat) (l : Lib) : Lib :=
  let l := (l.enterFaulted g d code).send (.unload d)
  let l := match (l.drive d).serving with
    | some t => l.reqRewinding g t
    | none => l
  l.faultServing g d .driveFault

/-- A drive fails in RESERVED with cause MANUAL (R58, R74). -/
def failManual (g : Settings) (d code : Nat) (l : Lib) : Lib :=
  let t? := (l.drive d).serving
  let l := (l.updDrive d fun v => { v with serving := none }).enterFaulted g d code
  let l := match t? with
    | some t => ((l.clearRequestPrompt g t).updReq t fun r => { r with drive := none }).takeQueue t
    | none => l
  l.postAttention g d none

/-- A FAULT report, or an OFFLINE taken as one (R47, R58). -/
def driveFaulted (g : Settings) (d code : Nat) (l : Lib) : Lib :=
  let l := l.updDrive d fun v => { v with fault := code }
  match (l.drive d).state with
  | .threading => l.failThreading g d code .driveFault
  | .rewinding => l.failRewinding g d code
  | .mounted _ => l.failMounted g d code
  | .cleaning => ((l.enterFaulted g d code).send (.unload d)).faultServing g d .driveFault
  | .idle => (l.enterFaulted g d code).postAttention g d none
  | .reserved .manual => l.failManual g d code
  | .reserved _ => ((l.unreserve g d).enterFaulted g d code).postAttention g d none
  | .awaitPick => (l.updDrive d fun v => { v with offPending := true }).postAttention g d none
  | .faulted => l
  | .offline => l

/-- The operator has taken the reel out of a FAULTED drive by hand (R58): the recorded volume becomes
MISSING, or SHELF from a MANUAL drive (R59). -/
def attentionDone (g : Settings) (d : Nat) (toShelf : Bool) (l : Lib) : Lib :=
  let l := match (l.drive d).reel with
    | .recorded s =>
      if toShelf then (l.clearHome g s (.empty none)).moveVol g s .shelf
      else l.declareMissing g s (.empty none)
    | _ => l
  let t? := (l.drive d).serving
  let l := l.updDrive d fun v =>
    { v with reel := .none, state := .offline, offPending := false, serving := none }
  let l := match t? with
    | some t => l.complete g t .driveFault
    | none => l
  l.clearAttentionPrompt g d

/-! ## LOADED-READY (R54) -/

/-- The reel field of a drive that has loaded a reel nobody asked for (R44, R54): unrecorded, but for a drive whose
reconcile reply is not in yet and at which the catalogue still places a volume. There the field is that volume, which
R44 says "exactly when the catalogue places that volume ON-DRIVE at this drive" (log 45). -/
def strayReel (l : Lib) (d : Nat) : Reel :=
  match l.volOnDrive? d with
  | some v => .recorded v.serial
  | none => .unrecorded

/-- A reel that nobody asked for is unloaded (R54). -/
def unloadStray (g : Settings) (d : Nat) (l : Lib) : Lib :=
  let l := l.unreserve g d
  let reel := l.strayReel d
  (l.updDrive d fun v => { v with reel := reel, serving := none }).orderUnload g d

/-- LOADED-READY in THREADING (R54). -/
def loadedThreading (g : Settings) (d : Nat) (l : Lib) : Lib :=
  let l := l.updDrive d fun v => { v with threadLeft := none }
  match (l.drive d).serving with
  | some t =>
    if (l.req? t).any Request.cancelPending then (l.orderUnload g d).setReqState g t .rewinding
    else l.mountAt g d t
  | none => l

/-- LOADED-READY on a MANUAL drive reserved for a manual mount (R54, R74). -/
def loadedManual (g : Settings) (d : Nat) (label : Option Serial) (l : Lib) : Lib :=
  match (l.drive d).serving with
  | some t =>
    match (l.req? t).bind Request.serial? with
    | some s =>
      if label = some s then
        let l := (l.moveVol g s (.onDrive d)).updDrive d fun v => { v with reel := .recorded s }
        let l := (l.clearRequestPrompt g t).mountAt g d t
        l.accrue ((l.req? t).bind Request.account) Account.addManual
      else
        ((l.updDrive d fun v => { v with reel := .unrecorded }).orderUnload g d).markWrongVolume t true
    | none => l
  | none => l

def loadedReport (g : Settings) (d : Nat) (raw : Option Serial) (l : Lib) : Lib :=
  let label := normLabel raw
  let said (l : Lib) : Lib := l.updDrive d fun v => { v with reported := label }
  match (l.drive d).state with
  | .threading => (said l).loadedThreading g d
  | .reserved .manual => (said l).loadedManual g d label
  | .reserved _ => (said l).unloadStray g d
  | .idle => (said l).unloadStray g d
  | .offline => (said l).unloadStray g d
  | .faulted => (said l).send (.unload d)
  | _ => l

/-! ## Unloading (R55 to R57, R62) -/

def loadFailedReport (g : Settings) (d : Nat) (l : Lib) : Lib :=
  if (l.drive d).state = .threading then l.failThreading g d 0 .loadFailed else l

/-- The volume an error figure is of: the one the reel field names, and for an unrecorded reel none (R56). While the
field says none, before the reconcile reply, it is the one that the records place ON-DRIVE there (R2, log 34). -/
def reelVolume? (l : Lib) (d : Nat) : Option Serial :=
  match (l.drive d).reel with
  | .recorded s => some s
  | .unrecorded => none
  | .none => (l.volOnDrive? d).map Volume.serial

/-- The error figure is added to the volume the records place at the drive (R2, R56). -/
def addErrors (d errors : Nat) (l : Lib) : Lib :=
  match l.reelVolume? d with
  | some s => l.updVol s fun v => { v with errors := satAdd max8 v.errors errors }
  | none => l

/-- Sends HOLDING-QUERY (R47, R56, R180). -/
def askHolding (d : Nat) (l : Lib) : Lib :=
  (l.updDrive d fun v => { v with queried := true }).send (.holdingQuery d)

/-- The uses left of a cleaner after a run (R2, R62). -/
def usedOnce : VolClass → VolClass
  | .cleaner n => .cleaner (n - 1)
  | c => c

/-- The end of a cleaning run (R62). -/
def endCleaning (g : Settings) (d : Nat) (l : Lib) : Lib :=
  match (l.drive d).reel with
  | .recorded s =>
    let l := (l.changeVol g s fun v => { v with cls := usedOnce v.cls }).cleaned g d
    let l := l.enterAwaitPick g d
    if (l.vol? s).any (fun v => v.cls = .cleaner 0) then
      l.postNotice g .cleanerExhausted { PromptSubject.nothing with volume := some s } 0
    else l
  | _ => (l.cleaned g d).enterAwaitPick g d

/-- The drive's request passes from MOUNTED into REWINDING with the drive (R56, R57). -/
def dismountDrive (g : Settings) (d : Nat) (l : Lib) : Lib :=
  match (l.drive d).serving with
  | some t => l.reqRewinding g t
  | none => l

/-- Fixes LOAD-FAILED for the drive's request (R56, R57). -/
def loadFailedCode (d : Nat) (l : Lib) : Lib :=
  match (l.drive d).serving with
  | some t => l.fixCode t .loadFailed
  | none => l

/-- UNLOADED (R56): the error figure is added, and the report is then taken by state, also where the state discards
it (log 34). -/
def unloadedReport (g : Settings) (d errors : Nat) (l : Lib) : Lib :=
  let l := l.addErrors d errors
  match (l.drive d).state with
  | .rewinding => l.enterAwaitPick g d
  | .mounted _ => ((l.closeMounted g d).dismountDrive g d).enterAwaitPick g d
  | .threading => (l.loadFailedCode d).enterAwaitPick g d
  | .cleaning => l.endCleaning g d
  | .faulted => if l.hasReel d then (l.clearAttentionPrompt g d).enterAwaitPick g d else l
  | .idle => l.askHolding d
  | .offline => l.askHolding d
  | .reserved _ => l
  | .awaitPick => l

def unloadPressedReport (g : Settings) (d : Nat) (l : Lib) : Lib :=
  match (l.drive d).state with
  | .mounted _ => (l.enterRewinding g d).dismountDrive g d
  | .threading =>
    let l := (l.loadFailedCode d).enterRewinding g d
    match (l.drive d).serving with
    | some t => l.setReqState g t .rewinding
    | none => l
  | _ => l

/-! ## REEL-REMOVED (R59) -/

/-- A recorded volume is taken out of a MANUAL drive in AWAIT-PICK (R59, R76, R181). -/
def removedRecorded (g : Settings) (d : Nat) (s : Serial) (l : Lib) : Lib :=
  let t? := (l.drive d).serving
  let l := (l.clearHome g s (.empty none)).moveVol g s .shelf
  let l := match t? with
    | some t => (l.accrue ((l.req? t).bind Request.account) Account.addManual).complete g t .ok
    | none => l
  l.enterIdle g d

def reelRemovedReport (g : Settings) (d : Nat) (l : Lib) : Lib :=
  if l.isAutomated d then l
  else
    match (l.drive d).state with
    | .awaitPick =>
      match (l.drive d).reel, (l.drive d).serving with
      | .recorded s, _ => l.removedRecorded g d s
      | _, some t =>
        (l.updDrive d fun v => { v with reel := .none, state := .reserved .manual }).markWrongVolume t false
      | _, none => l.enterIdle g d
    | .faulted => if l.hasReel d then l.attentionDone g d true else l
    | _ => l

/-! ## CLEAN-NEEDED, OFFLINE, ONLINE (R47, R61) -/

def cleanNeededReport (d : Nat) (l : Lib) : Lib :=
  if (l.drive d).state = .cleaning then l
  else (l.updDrive d fun v => { v with cleanDue := true }).raiseDrive .cleaningRequested d

def offlineReport (g : Settings) (d : Nat) (l : Lib) : Lib :=
  let l := l.updDrive d fun v => { v with detached := true }
  match (l.drive d).state with
  | .offline => l
  | .faulted => l
  | .idle => l.updDrive d fun v => { v with state := .offline }
  | .reserved .staged => (l.unreserve g d).updDrive d fun v => { v with state := .offline }
  | .reserved _ => l.updDrive d fun v => { v with offPending := true }
  | .awaitPick => l.updDrive d fun v => { v with offPending := true }
  | _ => l.driveFaulted g d 0

/-- ONLINE (R47). A reconcile reply that was still awaited is awaited no longer (R180, log 34). -/
def onlineReport (d : Nat) (l : Lib) : Lib :=
  if (l.drive d).detached then
    let l := l.updDrive d fun v => { v with detached := false, late := false }
    let l := if l.start.state = .ready then
        (l.updDrive d fun v => { v with defn := v.defn.map fun def_ => { def_ with confirmed := false } }).raiseDrive
          .driveAttached d
      else l
    if (l.drive d).state = .offline then l.askHolding d else l
  else l

/-! ## HOLDING (R60, R181) -/

/-- A reel found at a drive in OFFLINE or IDLE that no record places there (R60). -/
def strayFound (g : Settings) (d : Nat) (loaded : Bool) (l : Lib) : Lib :=
  let l := l.updDrive d fun v => { v with reel := .unrecorded, serving := none }
  if loaded then l.orderUnload g d else l.enterAwaitPick g d

/-- Takes a HOLDING reply by the drive's state (R60). -/
def holdingTaken (g : Settings) (d : Nat) (reply : HoldingReply) (l : Lib) : Lib :=
  match (l.drive d).state, reply with
  | .offline, .nothing => l.becomeIdle g d
  | .offline, .reel _ loaded => l.strayFound g d loaded
  | .idle, .reel _ loaded => l.strayFound g d loaded
  | .reserved .manual, .reel raw true => l.loadedReport g d raw
  | .reserved .staged, .reel _ loaded => (l.unreserve g d).strayFound g d loaded
  | .reserved .current, .reel _ loaded => (l.unreserve g d).strayFound g d loaded
  | _, _ => l

/-- The label a HOLDING reply names. -/
def holdingLabel : HoldingReply → Option Serial
  | .nothing => none
  | .reel raw _ => normLabel raw

/-- The volume that the records place at the drive is not there (R180, R181): it becomes MISSING, and a reel field
that names it an unrecorded reel (R44). -/
def loseAtDrive (g : Settings) (d : Nat) (l : Lib) : Lib :=
  match l.volOnDrive? d with
  | some v =>
    let l := l.loseVolume g v.serial (.empty none)
    if (l.drive d).reel = .recorded v.serial then l.updDrive d fun x => { x with reel := .unrecorded } else l
  | none => l

/-- The reel that the records place at the drive is found there (R181): a reservation for a staged or current
order is released first. In any other state nothing else changes (R60, log 45). -/
def reelFound (g : Settings) (d : Nat) (reply : HoldingReply) (s : Serial) (loaded : Bool) (l : Lib) : Lib :=
  let held (l : Lib) : Lib := l.updDrive d fun x => { x with reel := .recorded s, serving := none }
  let goOn (l : Lib) : Lib := if loaded then l.orderUnload g d else l.enterAwaitPick g d
  match (l.drive d).state with
  | .offline => goOn (held l)
  | .idle => goOn (held l)
  | .reserved .manual => l.holdingTaken g d reply
  | .reserved _ => goOn (held (l.unreserve g d))
  | _ => l

/-- A HOLDING reply in the reconcile phase (R181). The drive follows the table of R60, so that a reply of none leaves
one that is IDLE already as it is (log 40). -/
def holdingReconcile (g : Settings) (d : Nat) (reply : HoldingReply) (l : Lib) : Lib :=
  match reply, l.volOnDrive? d with
  | .reel raw loaded, some v =>
    if normLabel raw = some v.serial then l.reelFound g d reply v.serial loaded
    else (l.loseAtDrive g d).holdingTaken g d reply
  | _, _ => (l.loseAtDrive g d).holdingTaken g d reply

/-- HOLDING (R60): it clears the flag of an outstanding query. One taken while a late reconcile reply is awaited is
that reply, and clears detached (R180, log 34). -/
def holdingReport (g : Settings) (d : Nat) (reply : HoldingReply) (l : Lib) : Lib :=
  let v := l.drive d
  if v.queried || v.late then
    let reconciling := v.queryLeft.isSome
    let l := l.updDrive d fun v =>
      { v with queried := false, queryLeft := none, late := false
               reported := holdingLabel reply, detached := !v.late && v.detached }
    if reconciling then l.holdingReconcile g d reply else l.holdingTaken g d reply
  else l

/-! ## Limits (R55, R57, R62, R180) -/

def threadingExpired (g : Settings) (d : Nat) (l : Lib) : Lib :=
  if isDue (l.drive d).threadLeft then l.failThreading g d 0 .loadFailed else l

def unloadExpired (g : Settings) (d : Nat) (l : Lib) : Lib :=
  if isDue (l.drive d).unloadLeft then l.failRewinding g d 0 else l

/-- A reconcile query expires (R180): the drive is detached, and its state stands, also one that is no longer
OFFLINE (log 50). -/
def reconcileExpired (g : Settings) (d : Nat) (l : Lib) : Lib :=
  if isDue (l.drive d).queryLeft then
    (l.updDrive d fun v =>
      { v with queried := false, queryLeft := none, detached := true, late := true }).loseAtDrive g d
  else l

/-- A drive number (R207). -/
def driveOk (d : Nat) : Bool := d < Config.drives

end Lib

/-! ## The meanings of the reports -/

/-- A report of a drive whose number is in range; any other message is discarded (R207), but in FORMATTING makes
the clearing first (log 7). -/
def driveEvent (d : Nat) (f : Settings → Lib → Lib) (s : State) : Host.Outcome State Fault Refusal :=
  .next (event (fun g l => if Lib.driveOk d then f g l else l) s)

/-- LOADED_READY (R54). -/
def execLoadedReady (d : Nat) (label : Option Serial) (s : State) : Host.Outcome State Fault Refusal :=
  driveEvent d (fun g l => l.loadedReport g d label) s

/-- LOAD_FAILED (R55). -/
def execLoadFailed (d : Nat) (s : State) : Host.Outcome State Fault Refusal :=
  driveEvent d (fun g l => l.loadFailedReport g d) s

/-- UNLOADED (R56); its error figure is 0 to 255. -/
def execUnloaded (d errors : Nat) (s : State) : Host.Outcome State Fault Refusal :=
  driveEvent d (fun g l => if errors ≤ 255 then l.unloadedReport g d errors else l) s

/-- UNLOAD_PRESSED (R57). -/
def execUnloadPressed (d : Nat) (s : State) : Host.Outcome State Fault Refusal :=
  driveEvent d (fun g l => l.unloadPressedReport g d) s

/-- REEL_REMOVED (R59). -/
def execReelRemoved (d : Nat) (s : State) : Host.Outcome State Fault Refusal :=
  driveEvent d (fun g l => l.reelRemovedReport g d) s

/-- CLEAN_NEEDED (R61). -/
def execCleanNeeded (d : Nat) (s : State) : Host.Outcome State Fault Refusal :=
  driveEvent d (fun _ l => l.cleanNeededReport d) s

/-- DRIVE_FAULT_REPORT (R58); its code is 1 to 255. -/
def execDriveFaultReport (d code : Nat) (s : State) : Host.Outcome State Fault Refusal :=
  driveEvent d (fun g l => if 1 ≤ code && code ≤ 255 then l.driveFaulted g d code else l) s

/-- ONLINE (R47). -/
def execOnline (d : Nat) (s : State) : Host.Outcome State Fault Refusal :=
  driveEvent d (fun _ l => l.onlineReport d) s

/-- OFFLINE (R47). -/
def execOffline (d : Nat) (s : State) : Host.Outcome State Fault Refusal :=
  driveEvent d (fun g l => l.offlineReport g d) s

/-- HOLDING (R60, R181). -/
def execHolding (d : Nat) (reply : HoldingReply) (s : State) : Host.Outcome State Fault Refusal :=
  driveEvent d (fun g l => l.holdingReport g d reply) s

/-- RECONCILE_QUERY_EXPIRY (R180). -/
def execReconcileQueryExpiry (d : Nat) (s : State) : Host.Outcome State Fault Refusal :=
  driveEvent d (fun g l => l.reconcileExpired g d) s

/-- THREADING_LIMIT_EXPIRY (R55). -/
def execThreadingLimitExpiry (d : Nat) (s : State) : Host.Outcome State Fault Refusal :=
  driveEvent d (fun g l => l.threadingExpired g d) s

/-- UNLOAD_LIMIT_EXPIRY (R57, R62). -/
def execUnloadLimitExpiry (d : Nat) (s : State) : Host.Outcome State Fault Refusal :=
  driveEvent d (fun g l => l.unloadExpired g d) s

/-! ## Define Drive and Confirm Drive -/

/-- The path fields of a Define Drive (R45). -/
def drivePaths (f : DriveBlock) : List Nat := [f.path1, f.path2, f.path3, f.path4]

/-- Check 1 of R45. -/
def driveFieldsOk (f : DriveBlock) (columns : Nat) : Bool :=
  f.drive < Config.drives && (f.kind = 1 || f.kind = 2)
    && (if f.kind = 1 then f.column < columns else f.column = 0)
    && f.density1 ≤ 1 && f.density2 ≤ 1 && f.density3 ≤ 1 && 1 ≤ f.density1 + f.density2 + f.density3
    && 1 ≤ f.pathCount && f.pathCount ≤ 4
    && ((drivePaths f).take f.pathCount).all (fun p => p ≤ 7)
    && decide ((drivePaths f).take f.pathCount).Nodup
    && ((drivePaths f).drop f.pathCount).all (fun p => p = 0)
    && 1 ≤ f.threshold && f.threshold ≤ 999 && f.resetCleaning ≤ 1

/-- The definition a Define Drive sets, over the one there was (R45). -/
def driveDefine (f : DriveBlock) (old : Option DriveDef) : DriveDef :=
  { kind := if f.kind = 1 then .automated f.column else .manual
    densities := (if f.density1 = 1 then [1] else []) ++ (if f.density2 = 1 then [2] else [])
      ++ (if f.density3 = 1 then [3] else [])
    paths := (drivePaths f).take f.pathCount
    threshold := f.threshold
    sinceClean := (old.map DriveDef.sinceClean).getD 0
    lifeMounts := (old.map DriveDef.lifeMounts).getD 0
    lifeSeconds := (old.map DriveDef.lifeSeconds).getD 0
    confirmed := true }

/-- An IDLE drive that a command leaves eligible where it was not in `was` counts as freed (R45, R46, R51). -/
def Lib.freedIfEligible (g : Settings) (l was : Lib) (d : Nat) : Lib :=
  if l.newlyEligible g was d then l.driveFreed d else l

/-- Define Drive (R45). An undefined drive that reports have made IDLE (log 26) stays IDLE, and is confirmed and may
be eligible at once: R45 has an undefined drive stay OFFLINE and does not foresee IDLE (DESIGN CHOICE, log 26). -/
def cmdDefineDrive (f : DriveBlock) (g : Settings) (l : Lib) : Applied :=
  gated .normal .none g l
    (checks
      [(driveFieldsOk f l.store.lib.columns, .invalidField, .none),
       ((l.drive f.drive).state = .offline || (l.drive f.drive).state = .idle, .driveState, .drive f.drive)]
      g l
      (let set := l.updDrive f.drive fun v => { v with defn := some (driveDefine f v.defn) }
       let done := if f.resetCleaning = 1 then set.cleaned g f.drive else set.checkCleaning f.drive
       .good g (done.freedIfEligible g l f.drive) []))

def execDefineDrive (f : DriveBlock) (s : State) : Host.Outcome State Fault Refusal :=
  .next (hostStep (cmdDefineDrive f) s)

/-- Confirm Drive (R46). -/
def cmdConfirmDrive (d : Nat) (g : Settings) (l : Lib) : Applied :=
  gated .normal .none g l
    (checks
      [(d < Config.drives, .invalidField, .none), ((l.drive d).defn.isSome, .driveState, .drive d)] g l
      (if (l.drive d).defn.any DriveDef.confirmed then .good g l []
       else
        .good g ((l.updDrive d fun v =>
          { v with defn := v.defn.map fun def_ => { def_ with confirmed := true } }).freedIfEligible g l d) []))

def execConfirmDrive (d : Nat) (s : State) : Host.Outcome State Fault Refusal :=
  .next (hostStep (cmdConfirmDrive d) s)

/-! ## Vary Drive and Vary Path -/

/-- Vary Drive off, by state (R52). -/
def Lib.varyOff (g : Settings) (d : Nat) (l : Lib) : Lib :=
  match (l.drive d).state with
  | .offline => l
  | .idle => l.updDrive d fun v => { v with state := .offline }
  | .reserved .staged => (l.unreserve g d).updDrive d fun v => { v with state := .offline }
  | .faulted =>
    if !l.hasReel d then (l.updDrive d fun v => { v with state := .offline }).clearAttentionPrompt g d
    else if (l.drive d).serving.isSome then l.updDrive d fun v => { v with offPending := true }
    else l.attentionDone g d false
  | _ => l.updDrive d fun v => { v with offPending := true }

/-- Vary Drive on (R52). -/
def Lib.varyOn (g : Settings) (d : Nat) (l : Lib) : Lib :=
  let l := l.updDrive d fun v => { v with offPending := false }
  if (l.drive d).state = .offline then l.enterIdle g d else l

/-- Vary Drive (R52). -/
def cmdVaryDrive (d action : Nat) (g : Settings) (l : Lib) : Applied :=
  gated .normal .none g l
    (checks
      [(d < Config.drives && action ≤ 1, .invalidField, .none),
       ((l.drive d).defn.isSome, .driveState, .drive d),
       (action = 0 || (l.drive d).state ≠ .offline || !(l.drive d).detached, .driveState, .drive d)] g l
      (.good g (if action = 0 then l.varyOff g d else l.varyOn g d) []))

def execVaryDrive (d action : Nat) (s : State) : Host.Outcome State Fault Refusal :=
  .next (hostStep (cmdVaryDrive d action) s)

/-- The enable set as one byte, bit p for path p (log 11). -/
def pathByte (paths : List Bool) : Nat :=
  (List.range 8).foldl (fun n p => if paths.getD p false then n + 2 ^ p else n) 0

/-- Enabling a path counts as a resource freed (R49). -/
def Lib.pathFreed (p : Nat) (l : Lib) : Lib :=
  (l.byIdle (Lib.drivesWhere fun d => l.isManual d && (l.drive d).state = .idle
    && (l.drive d).defn.any fun def_ => def_.paths.contains p)).foldl (fun l d => l.noteOffer d) l.wake

/-- Vary Path (R49). -/
def cmdVaryPath (p action : Nat) (g : Settings) (l : Lib) : Applied :=
  gated .normal .none g l
    (checks [(p < 8 && action ≤ 1, .invalidField, .none)] g l
      (let g' := { g with paths := g.paths.set p (action = 1) }
       .good g' (if action = 1 && !Lib.pathEnabled g p then l.pathFreed p else l)
        [{ width := 1, value := pathByte g'.paths }]))

def execVaryPath (p action : Nat) (s : State) : Host.Outcome State Fault Refusal :=
  .next (hostStep (cmdVaryPath p action) s)

/-! ## Query Drive -/

/-- Drive state codes (R48). -/
def DriveState.code : DriveState → Nat
  | .offline => 1
  | .idle => 2
  | .reserved _ => 3
  | .threading => 4
  | .mounted _ => 5
  | .rewinding => 6
  | .awaitPick => 7
  | .cleaning => 8
  | .faulted => 9

/-- Reservation cause codes (R48). -/
def DriveState.causeCode : DriveState → Nat
  | .reserved .staged => 1
  | .reserved .current => 2
  | .reserved .manual => 3
  | _ => 0

/-- A clock reading as five bytes: the day in two, the second in three (10, section 10.8). -/
def clockValue (c : Clock) : Nat := c.day * 2 ^ 24 + c.second

/-- The definition fields of Query Drive, zero when undefined (R48, log 11). -/
def defFields (d : Option DriveDef) : List Field :=
  let n (f : DriveDef → Nat) : Nat := (d.map f).getD 0
  let kind : Nat := n fun x => match x.kind with
    | .automated _ => 1
    | .manual => 2
  let column : Nat := n fun x => match x.kind with
    | .automated c => c
    | .manual => 0
  [{ width := 1, value := kind }, { width := 1, value := column }]
    ++ [1, 2, 3].map (fun c => flagField (d.any fun x => x.densities.contains c))
    ++ [{ width := 1, value := n fun x => x.paths.length }]
    ++ [0, 1, 2, 3].map (fun i => { width := 1, value := n fun x => x.paths.getD i 0 })
    ++ [{ width := 2, value := n DriveDef.threshold }, { width := 2, value := n DriveDef.sinceClean },
        { width := 4, value := n DriveDef.lifeMounts }, { width := 4, value := n DriveDef.lifeSeconds },
        flagField (d.any DriveDef.confirmed)]

/-- The data-in of Query Drive (R48). -/
def driveFields (g : Settings) (v : Drive) : List Field :=
  let reel : Nat := match v.reel with
    | .none => 0
    | .recorded _ => 1
    | .unrecorded => 2
  let serial : Nat := match v.reel with
    | .recorded s => s.key
    | _ => 0
  [flagField v.defn.isSome] ++ defFields v.defn
    ++ [{ width := 1, value := v.state.code }, { width := 2, value := v.serving.getD 0 },
        { width := 1, value := v.state.causeCode }, { width := 1, value := reel },
        { width := 6, value := serial }]
    ++ optSerial v.reported ++ optField 5 (v.idleSince.map clockValue)
    ++ [{ width := 1, value := v.fault }, flagField v.offPending, flagField v.cleanDue,
        flagField v.detached, flagField v.queried, { width := 1, value := pathByte g.paths }]

/-- Query Drive (R48). -/
def cmdQueryDrive (d : Nat) (g : Settings) (l : Lib) : Applied :=
  gated .unformattedToo .none g l
    (checks [(d < Config.drives, .invalidField, .none)] g l (.good g l (driveFields g (l.drive d))))

def execQueryDrive (d : Nat) (s : State) : Host.Outcome State Fault Refusal :=
  .next (hostStep (cmdQueryDrive d) s)

end Sys2Proof.Machine
end

