-- ==== Sys2Proof/Machine/Requests.lean ====
section
/-! DEFINITION. The commands that create, end, read and release requests (R67 to R70, R76, R78 to R82, R85)
and the queue-stall expiry (R91). -/

namespace Sys2Proof.Machine

/-! ## Admission (R67) -/

/-- The start limit is running (R186). -/
def StartLimit.isRunning : StartLimit → Bool
  | .running _ => true
  | _ => false

/-- The library state admits a request-creating command (R67): in STARTING only before the start limit has
expired, and never a Clean Drive. -/
def Lib.admits (l : Lib) (clean : Bool) : Bool :=
  l.start.state ≠ .starting || (!clean && l.start.limit.isRunning)

/-- The library state and the host's share, tested before the checks of the kind (R65, R67). -/
def admission (clean : Bool) (g : Settings) (l : Lib) (k : Applied) : Applied :=
  gated .normal .none g l
    (checks [(l.admits clean, .notReady, .none)] g l (if l.hostFull then .busy g l else k))

/-- Check 1 of R68. -/
def tagChecks (l : Lib) (tag : Nat) : List (Bool × Sense × Subject) :=
  [(1 ≤ tag && tag ≤ 32767, .invalidField, .none), ((l.req? tag).isNone, .tagInUse, .tag tag)]

/-- A refusal that is counted against the account (R152, R156). -/
def refuseCounted (g : Settings) (l : Lib) (account : Nat) (c : Sense) : Applied :=
  { set := g, lib := l.accrue (some account) Account.addRefusal, reply := fun _ => .check c (.account account) }

/-- Check 3 of R68: the account exists, is OPEN and is under its quota (R152). -/
def accountChecks (n : Nat) (g : Settings) (l : Lib) (k : Applied) : Applied :=
  match l.account? n with
  | none => .refuse g l .accountUnknown (.account n)
  | some a =>
    if a.suspended then refuseCounted g l n .accountSuspended
    else if !l.underQuota a then refuseCounted g l n .quota
    else k

/-- An admitted request enters QUEUED in READY, and stays HELD in STARTING (R67). -/
def Lib.enterFirst (g : Settings) (t : Nat) (l : Lib) : Lib :=
  if l.start.state = .starting then l else l.enterQueued g t

def accountOk (n : Nat) : Bool := 1 ≤ n && n ≤ 9999

/-! ## Mount -/

/-- The fields a Mount gives its request (R68). -/
def fillMount (f : MountBlock) (v : Volume) (r : Request) : Request :=
  { r with path := some f.path, density := some v.density, account := some f.account
           access := some (if f.access = 2 then .write else .read)
           manualAllowed := some (f.manualAllowed = 1)
           route := if v.state = .home then some .library else none
           source := if v.state = .home then Lib.homeSource v else none }

/-- Check 2 of R68. -/
def mountFieldsOk (f : MountBlock) : Bool :=
  f.serial.valid && f.path ≤ 7 && accountOk f.account && f.priority ≤ 3
    && (f.access = 1 || f.access = 2) && f.manualAllowed ≤ 1

/-- The admission of a Mount that has passed its checks (R67, R68). -/
def Lib.admitMount (g : Settings) (f : MountBlock) (v : Volume) (l : Lib) : Lib :=
  let l := l.admitReq g f.tag .link .mount (.volume f.serial) f.priority (fillMount f v)
  if v.state = .home || l.start.state = .starting then l.enterFirst g f.tag else l.chooseRoute g f.tag

/-- Mount (R68). -/
def cmdMount (f : MountBlock) (g : Settings) (l : Lib) : Applied :=
  admission false g l
    (checks (tagChecks l f.tag ++ [(mountFieldsOk f, .invalidField, .none)]) g l
      (accountChecks f.account g l
        (match l.vol? f.serial with
          | none => .refuse g l .volumeUnknown (.serial f.serial)
          | some v =>
            checks
              [(v.holder.isNone, .volumeInUse, .serial f.serial),
               ((match v.cls with
                  | .cleaner _ => false
                  | _ => true)
                && (v.state = .home || (v.state = .shelf && f.manualAllowed = 1)),
                .volumeState, .serial f.serial),
               (f.access = 1 || v.ring, .ringAbsent, .serial f.serial),
               (l.couldServe (fillMount f v (Lib.freshRequest g f.tag .link .mount .none f.priority 0))
                  (v.state = .shelf), .noEligibleDrive, .tag f.tag)] g l
              (.good g (l.admitMount g f v) []))))

def execMount (f : MountBlock) (s : State) : Host.Outcome State Fault Refusal :=
  .next (hostStep (cmdMount f) s)

/-! ## Mount Scratch -/

/-- The fields a Mount Scratch gives its request (R69). -/
def fillScratch (f : ScratchBlock) (source : Option Place) (r : Request) : Request :=
  { r with path := some f.path, density := some f.density, account := some f.account
           access := some .write, route := some .library, expiryDays := some f.expiryDays, source := source }

/-- Check 2 of R69. -/
def scratchFieldsOk (f : ScratchBlock) : Bool :=
  1 ≤ f.density && f.density ≤ 3 && f.path ≤ 7 && accountOk f.account && f.priority ≤ 3
    && 1 ≤ f.expiryDays && f.expiryDays ≤ 9999

/-- The first scratch volume of a density (R8). -/
def Lib.scratchOf (l : Lib) (density : Nat) : Option Volume :=
  (l.cat.scratch.filterMap l.vol?).find? fun v => v.density = density

/-- Mount Scratch (R69). -/
def cmdMountScratch (f : ScratchBlock) (g : Settings) (l : Lib) : Applied :=
  admission false g l
    (checks (tagChecks l f.tag ++ [(scratchFieldsOk f, .invalidField, .none)]) g l
      (accountChecks f.account g l
        (checks
          [(l.couldServe (fillScratch f none (Lib.freshRequest g f.tag .link .mountScratch .none f.priority 0))
              false, .noEligibleDrive, .tag f.tag)] g l
          (match l.scratchOf f.density with
            | none => .refuse g l .noScratch .none
            | some v =>
              .good g ((l.admitReq g f.tag .link .mountScratch (.volume v.serial) f.priority
                (fillScratch f (Lib.homeSource v))).enterFirst g f.tag) []))))

def execMountScratch (f : ScratchBlock) (s : State) : Host.Outcome State Fault Refusal :=
  .next (hostStep (cmdMountScratch f) s)

/-! ## Eject, Audit, Clean Drive -/

/-- Eject (R70). -/
def cmdEject (tag : Nat) (serial : Serial) (priority : Nat) (g : Settings) (l : Lib) : Applied :=
  admission false g l
    (checks (tagChecks l tag ++ [(serial.valid && priority ≤ 3, .invalidField, .none)]) g l
      (match l.vol? serial with
        | none => .refuse g l .volumeUnknown (.serial serial)
        | some v =>
          checks [(v.holder.isNone, .volumeInUse, .serial serial),
                  (v.state = .home, .volumeState, .serial serial)] g l
            (.good g ((l.admitReq g tag .link .eject (.volume serial) priority fun r =>
              { r with source := Lib.homeSource v }).enterFirst g tag) [])))

def execEject (tag : Nat) (serial : Serial) (priority : Nat) (s : State) :
    Host.Outcome State Fault Refusal := .next (hostStep (cmdEject tag serial priority) s)

/-- The priority of an Audit: FFh stands for level 3 (R70). -/
def auditPriority (p : Nat) : Nat := if p = 255 then 3 else p

/-- Audit (R70). -/
def cmdAudit (tag first last priority : Nat) (g : Settings) (l : Lib) : Applied :=
  admission false g l
    (checks (tagChecks l tag ++
        [(first ≤ last && last < l.columns && (priority ≤ 3 || priority = 255), .invalidField, .none)]) g l
      (.good g ((l.admitReq g tag .link .audit .none (auditPriority priority) fun r =>
        { r with cursor := some { next := first, first := first, last := last } }).enterFirst g tag) []))

def execAudit (tag first last priority : Nat) (s : State) : Host.Outcome State Fault Refusal :=
  .next (hostStep (cmdAudit tag first last priority) s)

/-- Clean Drive (R85). -/
def cmdCleanDrive (tag drive priority : Nat) (g : Settings) (l : Lib) : Applied :=
  admission true g l
    (checks (tagChecks l tag ++
        [(drive < Config.drives && priority ≤ 3, .invalidField, .none),
         (l.isAutomated drive, .driveState, .drive drive),
         (!l.cleanNames drive, .requestState, .tag tag)]) g l
      (match l.chooseCleaner with
        | none => .refuse g l .noCleaner (.drive drive)
        | some v =>
          .good g ((l.admitReq g tag .link .clean (.volume v.serial) priority fun r =>
            { r with drive := some drive, source := Lib.homeSource v }).enterQueued g tag) []))

def execCleanDrive (tag drive priority : Nat) (s : State) : Host.Outcome State Fault Refusal :=
  .next (hostStep (cmdCleanDrive tag drive priority) s)

/-! ## Dismount, Cancel, Release Request -/

/-- The tag checks of Dismount and Release Request, and the request (R76, R80). -/
def withTag (tag : Nat) (g : Settings) (l : Lib) (k : Request → Applied) : Applied :=
  gated .normal .none g l
    (checks [(1 ≤ tag && tag ≤ 32767, .invalidField, .none)] g l
      (match l.req? tag with
        | none => .refuse g l .tagUnknown (.tag tag)
        | some r => k r))

/-- Dismount (R76). -/
def cmdDismount (tag : Nat) (g : Settings) (l : Lib) : Applied :=
  withTag tag g l fun r =>
    checks [(r.isMount && r.state = .mounted, .requestState, .tag tag)] g l
      (let l := l.reqRewinding g tag
       .good g (match r.drive with
         | some d => l.orderUnload g d
         | none => l) [])

def execDismount (tag : Nat) (s : State) : Host.Outcome State Fault Refusal :=
  .next (hostStep (cmdDismount tag) s)

/-- Release Request (R80). -/
def cmdReleaseRequest (tag : Nat) (g : Settings) (l : Lib) : Applied :=
  withTag tag g l fun r =>
    checks [(r.state = .done, .requestState, .tag tag)] g l (.good g (l.freeEntry tag) [])

def execReleaseRequest (tag : Nat) (s : State) : Host.Outcome State Fault Refusal :=
  .next (hostStep (cmdReleaseRequest tag) s)

/-- What Cancel does to a request (R78): none when it is refused. -/
def Lib.cancel (g : Settings) (r : Request) (l : Lib) : Option Lib :=
  let pending (l : Lib) : Lib :=
    (l.updReq r.tag fun q => { q with cancelPending := true }).fixCode r.tag .cancelled
  match r.state with
  | .done => none
  | .held => some (l.completeCancelled g r.tag)
  | .queued => some (l.completeCancelled g r.tag)
  | .manual => some (l.completeCancelled g r.tag)
  | .fetching | .moving =>
    if (l.stagedFor? r.tag).isSome then some ((l.dropStaged g r.tag).completeCancelled g r.tag)
    else if r.isMount || r.kind = .audit then some (pending l)
    else none
  | .threading => if r.isMount then some (pending l) else none
  | _ => none

/-- Cancel (R78). A tag borne by an internal request gives REQUEST-STATE (log 33). -/
def cmdCancel (tag : Nat) (g : Settings) (l : Lib) : Applied :=
  gated .normal .none g l
    (checks
      [(!(l.req? tag).any (fun r => r.origin = .internal), .requestState, .tag tag),
       (1 ≤ tag && tag ≤ 32767, .invalidField, .none)] g l
      (match l.req? tag with
        | none => .refuse g l .tagUnknown (.tag tag)
        | some r =>
          if r.cancelPending && r.state ≠ .done then .good g l []
          else
            match l.cancel g r with
            | some l' => .good g l' []
            | none => .refuse g l .requestState (.tag tag)))

def execCancel (tag : Nat) (s : State) : Host.Outcome State Fault Refusal :=
  .next (hostStep (cmdCancel tag) s)

/-! ## Query Request and List Requests -/

/-- Kind codes (R64). -/
def Kind.code : Kind → Nat
  | .mount => 1
  | .mountScratch => 2
  | .eject => 3
  | .clean => 4
  | .audit => 5
  | .imp => 6
  | .ret => 7

/-- State codes (R66). -/
def ReqState.code : ReqState → Nat
  | .held => 1
  | .queued => 2
  | .manual => 3
  | .fetching => 4
  | .moving => 5
  | .threading => 6
  | .mounted => 7
  | .rewinding => 8
  | .cleaning => 9
  | .returnReady => 10
  | .returning => 11
  | .done => 12

/-- Completion codes (R88). -/
def Code.code : Code → Nat
  | .ok => 0
  | .cancelled => 1
  | .notReady => 2
  | .volumeMissing => 3
  | .loadFailed => 4
  | .driveFault => 5
  | .accessorFault => 6
  | .operatorRefused => 7
  | .promptTimeout => 8
  | .noDestination => 9

def Origin.code : Origin → Nat
  | .link => 1
  | .internal => 2

def Access.code : Access → Nat
  | .read => 1
  | .write => 2

def Route.code : Route → Nat
  | .library => 1
  | .manualDrive => 2
  | .station => 3

def accNumber : AccId → Nat
  | .a => 0
  | .b => 1

/-- The type of a place (R204). -/
def placeType : Place → Nat
  | .cell _ => 1
  | .slot _ => 2
  | .drive _ => 3
  | .gripper _ => 4

/-- The number of a place (R204). -/
def placeNumber : Place → Nat
  | .cell n => n
  | .slot n => n
  | .drive n => n
  | .gripper x => accNumber x

/-- The optional fields of Query Request with their widths, in the order of their presence bits (R204). -/
def requestOptions (r : Request) (posting : Option Nat) : List (List Nat × Option (List Nat)) :=
  [([6], (Lib.cargoLabel r.cargo).map fun s => [s.key]),
   ([1], r.drive.map fun d => [d]),
   ([1], r.path.map fun p => [p]),
   ([1], r.density.map fun d => [d]),
   ([2], r.account.map fun a => [a]),
   ([1], r.access.map fun a => [a.code]),
   ([1], r.manualAllowed.map fun b => [if b then 1 else 0]),
   ([1], r.route.map fun x => [x.code]),
   ([2], r.expiryDays.map fun d => [d]),
   ([5], r.mountedAt.map fun c => [clockValue c]),
   ([1, 2], r.source.map fun p => [placeType p, placeNumber p]),
   ([1, 1], r.cursor.map fun c => [c.next, c.last]),
   ([2], posting.map fun n => [n]),
   ([1], r.code.map fun c => [c.code])]

/-- Presence bits, bit i for option i (R204). -/
def presenceBits (xs : List (List Nat × Option (List Nat))) : Nat :=
  xs.foldr (fun x n => 2 * n + if x.2.isSome then 1 else 0) 0

/-- The fields of one option, zero when absent. -/
def optionFields (x : List Nat × Option (List Nat)) : List Field :=
  x.1.zipIdx.map fun w => { width := w.1, value := (x.2.map fun vs => vs.getD w.2 0).getD 0 }

/-- The data-in of Query Request, 48 bytes (R204). -/
def requestFields (r : Request) (posting : Option Nat) : List Field :=
  let xs := requestOptions r posting
  let at_ (i : Nat) : List Field := ((xs[i]?).map optionFields).getD []
  [{ width := 2, value := r.tag }, { width := 1, value := r.origin.code },
   { width := 1, value := r.kind.code }, { width := 1, value := r.state.code },
   { width := 2, value := presenceBits xs }]
    ++ at_ 0 ++ at_ 1 ++ at_ 2 ++ at_ 3 ++ at_ 4
    ++ [{ width := 1, value := r.priority }]
    ++ at_ 5 ++ at_ 6 ++ at_ 7 ++ at_ 8
    ++ [{ width := 4, value := r.arrival }, { width := 5, value := clockValue r.arrived }]
    ++ at_ 9 ++ at_ 10 ++ at_ 11 ++ at_ 12
    ++ [flagField r.cancelPending] ++ at_ 13 ++ [{ width := 1, value := 0 }]

/-- Query Request (R81). -/
def cmdQueryRequest (tag : Nat) (g : Settings) (l : Lib) : Applied :=
  gated .normal .none g l
    (checks [(1 ≤ tag && tag ≤ 65535, .invalidField, .none)] g l
      (match l.req? tag with
        | none => .refuse g l .tagUnknown (.tag tag)
        | some r => .good g l (requestFields r ((l.requestPrompt? tag).map fun x => x.2.posting))))

def execQueryRequest (tag : Nat) (s : State) : Host.Outcome State Fault Refusal :=
  .next (hostStep (cmdQueryRequest tag) s)

/-- The live requests a List Requests matches, in ascending arrival sequence (R82). -/
def Lib.listed (l : Lib) (state after_ : Nat) : List Request :=
  sortBy (fun x y => x.arrival < y.arrival)
    (l.reqs.live.filter fun r => after_ < r.arrival && (state = 0 || r.state.code = state))

/-- The data-in of List Requests (R82, log 11): up to 24 entries, then the end mark. -/
def listFields (rs : List Request) : List Field :=
  (rs.take Config.listRequestsBatch).flatMap (fun r =>
    [{ width := 2, value := r.tag }, { width := 1, value := r.kind.code },
     { width := 1, value := r.state.code }, { width := 4, value := r.arrival }])
    ++ [flagField (rs.length ≤ Config.listRequestsBatch)]

/-- List Requests (R82). -/
def cmdListRequests (state after_ : Nat) (g : Settings) (l : Lib) : Applied :=
  gated .normal .none g l
    (checks [(state ≤ 12 && after_ ≤ max32, .invalidField, .none)] g l
      (.good g l (listFields (l.listed state after_))))

def execListRequests (state after_ : Nat) (s : State) : Host.Outcome State Fault Refusal :=
  .next (hostStep (cmdListRequests state after_) s)

/-! ## The queue stall (R91) -/

/-- The columns an AUDIT or EJECT in its list needs (R91). An EJECT whose reel is in a gripper keeps waiting, since
a reel of its own is away (R88, R105, log 20). -/
def Lib.neededColumns (l : Lib) (r : Request) : List Nat :=
  match r.kind with
  | .audit => (r.cursor.map Cursor.next).toList
  | .eject =>
    match r.source with
    | some (.gripper _) => []
    | p => (p.map (l.placeCol .a)).toList ++ [l.store.lib.stationColumn]
  | _ => []

/-- A queue-stall timer expires (R91). -/
def Lib.stallExpired (g : Settings) (t : Nat) (l : Lib) : Lib :=
  match l.req? t with
  | none => l
  | some r =>
    if isDue r.stallLeft then
      let l := (l.updReq t fun q => { q with stallLeft := none }).raiseRequest .queueStall t
      if (l.neededColumns r).any fun c => !l.inReach .a c && !l.inReach .b c then
        l.complete g t .noDestination
      else l
    else l

/-- QUEUE_STALL_EXPIRY (R91). -/
def execQueueStallExpiry (t : Nat) (s : State) : Host.Outcome State Fault Refusal :=
  .next (event (fun g l => l.stallExpired g t) s)

end Sys2Proof.Machine
end

