-- ==== Sys2Proof/Machine/Catalogue.lean ====
section
/-! DEFINITION. The six catalogue commands (R16 to R22). -/

namespace Sys2Proof

/-- The change set names a value. -/
def Change.named (c : Change) : Bool := c.flag = 1

/-- A change is well made: its flag is 0 or 1, and a named value meets its range (log 13). -/
def Change.ok (c : Change) (range : Nat → Bool) : Bool := c.flag ≤ 1 && (!c.named || range c.value)

namespace Machine

/-- Class codes (R1). -/
def VolClass.code : VolClass → Nat
  | .priv _ _ => 1
  | .scratch => 2
  | .cleaner _ => 3

/-- State codes (R1). -/
def VolState.code : VolState → Nat
  | .home => 1
  | .inTransit _ => 2
  | .onDrive _ => 3
  | .station _ => 4
  | .shelf => 5
  | .missing => 6

/-- The number of the place a state names (R1, R18). -/
def VolState.place? : VolState → Option Nat
  | .inTransit x => some (accNumber x)
  | .onDrive d => some d
  | .station k => some k
  | _ => none

def VolClass.owner? : VolClass → Option Nat
  | .priv o _ => some o
  | _ => none

def VolClass.expiry? : VolClass → Option Nat
  | .priv _ e => some e
  | _ => none

def VolClass.uses? : VolClass → Option Nat
  | .cleaner u => some u
  | _ => none

/-- The gate and the checks of a catalogue command; every refusal carries the serial named (R16, R198). -/
def catalogueCommand (s : Serial) (cs : List (Bool × Sense)) (g : Settings) (l : Lib) (k : Applied) :
    Applied :=
  gated .normal (.serial s) g l (checks (cs.map fun c => (c.1, c.2, .serial s)) g l k)

/-- The checks a new owner account must pass, when there is one (R17, R19). -/
def ownerChecks (l : Lib) (owner : Option Nat) : List (Bool × Sense) :=
  match owner with
  | none => []
  | some n =>
    [((l.account? n).isSome, .accountUnknown),
     (!((l.account? n).map Account.suspended).getD false, .accountSuspended)]

/-! ## Enter Volume (R17) -/

/-- The class-bound fields fit the class (R17). -/
def enterClass? (f : EnterBlock) : Option VolClass :=
  if f.classCode = 1 then
    if 1 ≤ f.owner && f.owner ≤ 9999 && f.expiry ≤ max16 && f.uses = 0 then some (.priv f.owner f.expiry)
    else none
  else if f.classCode = 2 then
    if f.owner = 0 && f.expiry = 0 && f.uses = 0 then some .scratch else none
  else if f.classCode = 3 then
    if f.owner = 0 && f.expiry = 0 && f.uses ≤ 99 then some (.cleaner f.uses) else none
  else none

/-- Check 1 of R17 on the fields that do not depend on the class. -/
def enterFieldsOk (f : EnterBlock) : Bool :=
  f.serial.valid && 1 ≤ f.density && f.density ≤ 3 && f.ring ≤ 1

/-- The record Enter Volume makes: on the shelf, with no home cell and no holder (R17). -/
def enteredVolume (f : EnterBlock) (cls : VolClass) : Volume :=
  { serial := f.serial, cls := cls, state := .shelf, homeCell := none, density := f.density,
    ring := f.ring = 1, mounts := 0, errors := 0, lastMount := none, holder := none }

/-- Enter Volume (R17). -/
def cmdEnterVolume (f : EnterBlock) (g : Settings) (l : Lib) : Applied :=
  match enterClass? f with
  | none => catalogueCommand f.serial [(false, .invalidField)] g l (.good g l [])
  | some cls =>
    catalogueCommand f.serial
      ([(enterFieldsOk f, .invalidField), ((l.vol? f.serial).isNone, .volumeExists),
        (l.catalogueRoom, .catalogueFull)] ++ ownerChecks l cls.owner?) g l
      (.good g (l.addVol (enteredVolume f cls)) [])

def execEnterVolume (f : EnterBlock) (s : State) : Host.Outcome State Fault Refusal :=
  .next (hostStep (cmdEnterVolume f) s)

/-! ## Query Volume (R18) -/

/-- The data-in of Query Volume (R18, log 11). -/
def volumeFields (v : Volume) : List Field :=
  [{ width := 6, value := v.serial.key }, { width := 1, value := v.cls.code },
   { width := 1, value := v.state.code }]
    ++ optField 1 v.state.place? ++ optField 2 v.homeCell ++ optField 2 v.cls.owner?
    ++ [{ width := 1, value := v.density }, flagField v.ring]
    ++ optField 2 v.cls.expiry? ++ optField 1 v.cls.uses?
    ++ [{ width := 2, value := v.mounts }, { width := 1, value := v.errors }]
    ++ optField 2 v.lastMount ++ optField 2 v.holder

/-- Query Volume (R18). -/
def cmdQueryVolume (s : Serial) (g : Settings) (l : Lib) : Applied :=
  catalogueCommand s [(s.valid, .invalidField), ((l.vol? s).isSome, .volumeUnknown)] g l
    (.good g l (((l.vol? s).map volumeFields).getD []))

def execQueryVolume (s : Serial) (st : State) : Host.Outcome State Fault Refusal :=
  .next (hostStep (cmdQueryVolume s) st)

/-! ## Update Volume (R19) -/

/-- Check 1 of R19. -/
def updateFieldsOk (f : UpdateBlock) : Bool :=
  (f.owner.named || f.expiry.named || f.ring.named || f.uses.named || f.density.named)
    && f.owner.ok accountOk && f.expiry.ok (· ≤ max16) && f.ring.ok (· ≤ 1) && f.uses.ok (· ≤ 99)
    && f.density.ok fun n => 1 ≤ n && n ≤ 3

/-- The set fits the class (check 3 of R19). -/
def updateFits (f : UpdateBlock) (v : Volume) : Bool :=
  ((!f.owner.named && !f.expiry.named) || v.cls.code = 1) && (!f.uses.named || v.cls.code = 3)

/-- The class-bound fields after an Update (R19). -/
def updatedClass (f : UpdateBlock) : VolClass → VolClass
  | .priv owner expiry =>
    .priv (if f.owner.named then f.owner.value else owner) (if f.expiry.named then f.expiry.value else expiry)
  | .scratch => .scratch
  | .cleaner uses => .cleaner (if f.uses.named then f.uses.value else uses)

/-- The record after an Update (R19). -/
def updatedVolume (f : UpdateBlock) (v : Volume) : Volume :=
  { v with cls := updatedClass f v.cls
           ring := if f.ring.named then f.ring.value = 1 else v.ring
           density := if f.density.named then f.density.value else v.density }

/-- What an Update changes, with the end of a CLEANER-EXHAUSTED notice (R19, R128). The scratch list stands: class,
state and holder do not change (R7, R19). -/
def Lib.updateVolume (g : Settings) (s : Serial) (f : UpdateBlock) (l : Lib) : Lib :=
  let l := l.updVol s (updatedVolume f)
  if f.uses.named && 0 < f.uses.value then l.withdrawNotice g .cleanerExhausted fun p => p.volume = some s
  else l

/-- Update Volume (R19). -/
def cmdUpdateVolume (s : Serial) (f : UpdateBlock) (g : Settings) (l : Lib) : Applied :=
  let v? := l.vol? s
  catalogueCommand s
    ([(s.valid && updateFieldsOk f, .invalidField), (v?.isSome, .volumeUnknown),
      (v?.all (updateFits f), .invalidField),
      (v?.all fun v => (!f.density.named && !f.uses.named) || v.holder.isNone, .volumeInUse)]
      ++ ownerChecks l (if f.owner.named then some f.owner.value else none)) g l
    (.good g (l.updateVolume g s f) [])

def execUpdateVolume (s : Serial) (f : UpdateBlock) (st : State) : Host.Outcome State Fault Refusal :=
  .next (hostStep (cmdUpdateVolume s f) st)

/-! ## Retire Volume (R20) -/

/-- The record is removed, and its notices end (R20, R128). -/
def Lib.retire (g : Settings) (s : Serial) (l : Lib) : Lib :=
  ((l.dropVol s).withdrawNotice g .volumeMissing fun p => p.volume = some s).withdrawNotice g .cleanerExhausted
    fun p => p.volume = some s

/-- Retire Volume (R20). -/
def cmdRetireVolume (s : Serial) (g : Settings) (l : Lib) : Applied :=
  let v? := l.vol? s
  catalogueCommand s
    [(s.valid, .invalidField), (v?.isSome, .volumeUnknown), (v?.all fun v => v.holder.isNone, .volumeInUse),
     (v?.all fun v => v.state = .shelf || v.state = .missing, .volumeState)] g l
    (.good g (l.retire g s) [])

def execRetireVolume (s : Serial) (st : State) : Host.Outcome State Fault Refusal :=
  .next (hostStep (cmdRetireVolume s) st)

/-! ## Release To Scratch (R21) -/

/-- The expiry day is at or before today (check 6 of R21). -/
def expired (g : Settings) (v : Volume) : Bool := v.cls.expiry?.all (· ≤ g.clock.day)

/-- Release To Scratch (R21). -/
def cmdReleaseToScratch (s : Serial) (force : Nat) (g : Settings) (l : Lib) : Applied :=
  let v? := l.vol? s
  catalogueCommand s
    [(s.valid && force ≤ 1, .invalidField), (v?.isSome, .volumeUnknown),
     (v?.all fun v => v.cls.code = 1, .volumeState), (v?.all fun v => v.holder.isNone, .volumeInUse),
     (force = 1 || g.clockSet, .clockUnset), (force = 1 || v?.all (expired g), .notExpired)] g l
    (.good g (l.changeVol g s fun v => { v with cls := .scratch }) [])

def execReleaseToScratch (s : Serial) (force : Nat) (st : State) : Host.Outcome State Fault Refusal :=
  .next (hostStep (cmdReleaseToScratch s force) st)

/-! ## List Volumes (R22) -/

/-- A record meets the filters and stands after the start-after serial (R22). -/
def listMatches (after_ : Serial) (state classCode owner : Nat) (v : Volume) : Bool :=
  after_.lt v.serial && (state = 0 || v.state.code = state) && (classCode = 0 || v.cls.code = classCode)
    && (owner = 0 || v.cls.owner? = some owner)

/-- The data-in of List Volumes (R22, log 11). -/
def catalogueFields (l : Lib) (vs : List Volume) : List Field :=
  let batch := vs.take Config.listVolumesBatch
  [{ width := 2, value := l.cat.vols.length }, { width := 2, value := l.cat.scratch.length },
   { width := 1, value := batch.length }, flagField (vs.length ≤ Config.listVolumesBatch)]
    ++ batch.map fun v => { width := 6, value := v.serial.key }

/-- List Volumes (R22). -/
def cmdListVolumes (after_ : Serial) (state classCode owner : Nat) (g : Settings) (l : Lib) : Applied :=
  catalogueCommand after_
    [((after_ = Serial.blank || after_.valid) && state ≤ 6 && classCode ≤ 3 && owner ≤ 9999, .invalidField)]
    g l (.good g l (catalogueFields l (l.cat.vols.filter (listMatches after_ state classCode owner))))

def execListVolumes (after_ : Serial) (state classCode owner : Nat) (s : State) :
    Host.Outcome State Fault Refusal := .next (hostStep (cmdListVolumes after_ state classCode owner) s)

end Machine
end Sys2Proof
end

