-- ==== Sys2Proof/Machine/Panel.lean ====
section
/-! DEFINITION. The panel's keys and HELLO (R133 to R137, R206), the deadlines and re-announce timers of the
prompts (R132, R138, R139), and the message commands (R142 to R144). -/

namespace Sys2Proof.Machine

namespace Lib

/-! ## Keys -/

/-- The entry after posting `n` in an order that wraps round to `first` (R134). -/
def entryAfter (first : Option (Nat × Prompt)) (n : Nat) : List (Nat × Prompt) → Option (Nat × Prompt)
  | [] => first
  | x :: xs => if x.2.posting = n then (xs.head?.or first) else entryAfter first n xs

/-- The posting a NEXT that names `n` steps from: `n` (R134); when a NEXT that named `n` has brought the presented
posting, that posting, so that a NEXT taken twice steps twice (R206, log 30). -/
def stepFrom (n : Nat) (l : Lib) : Nat :=
  if l.prompts.stepped = some n then l.prompts.presented.getD n else n

/-- The posting a NEXT presents: the one that follows in presentation order (R134). -/
def stepTo? (n : Nat) (l : Lib) : Option (Nat × Prompt) :=
  entryAfter l.presentationOrder.head? (l.stepFrom n) l.presentationOrder

/-- The posting a NEXT has named (log 30). -/
def noteStep (n : Nat) (l : Lib) : Lib := { l with prompts := { l.prompts with stepped := some n } }

/-- NEXT (R134, R206); a posting that stays presented is not sent again (log 30). -/
def stepPast (n : Nat) (l : Lib) : Lib :=
  match l.stepTo? n with
  | some x => (if l.prompts.presented = some x.2.posting then l else l.display x false).noteStep n
  | none => l

/-- ACCEPT and REFUSE of a host message, and ACCEPT of a notice (R135, R136, R139). -/
def acceptPrompt (g : Settings) (x : Nat × Prompt) (l : Lib) : Lib :=
  if x.2.kind = .hostMessage then l.answerMessage x .accept else l.withdrawSlot g x.1

/-- REFUSE: a manual mount or station insert ends OPERATOR-REFUSED (R136). -/
def refusePrompt (g : Settings) (x : Nat × Prompt) (l : Lib) : Lib :=
  if x.2.kind = .hostMessage then l.answerMessage x .refuse
  else
    match x.2.subject.tag with
    | some t => l.complete g t .operatorRefused
    | none => l

/-- DONE: the operator has taken the reel out of the faulted drive (R58, R137). -/
def donePrompt (g : Settings) (x : Nat × Prompt) (l : Lib) : Lib :=
  let l := l.accrue ((x.2.subject.tag.bind l.req?).bind Request.account) Account.addManual
  match x.2.subject.drive with
  | some d => l.attentionDone g d false
  | none => l

end Lib

/-- The key answers this posting, or is NEXT (R127, R133). -/
def keyValid (key : KeyName) (p : Prompt) : Bool :=
  match key with
  | .next => true
  | .accept => p.kind.takesAccept && !p.isRequest
  | .refuse => p.kind.takesRefuse
  | .done => p.kind = .driveAttention && p.isRequest

/-- What a key that is TAKEN does (R134 to R137). -/
def Lib.keyAct (key : KeyName) (g : Settings) (x : Nat × Prompt) (l : Lib) : Lib :=
  match key with
  | .next => l.stepPast x.2.posting
  | .accept => l.acceptPrompt g x
  | .refuse => l.refusePrompt g x
  | .done => l.donePrompt g x

/-- The result a KEY gets (R133). -/
def Lib.keyResult (key : KeyName) (n : Nat) (l : Lib) : ReplyResult :=
  match l.posted? n with
  | none => .gone
  | some x => if keyValid key x.2 then .taken else .notValid

/-- The records after a KEY: it acts only when it is TAKEN (R133). -/
def Lib.keyChange (key : KeyName) (g : Settings) (n : Nat) (l : Lib) : Lib :=
  match l.posted? n with
  | none => l
  | some x => if keyValid key x.2 then l.keyAct key g x else l

/-- A KEY as one step; its REPLY follows whatever the key's action has sent (R205). -/
def keyStep (key : KeyName) (n : Nat) (s : State) : State :=
  if s.set.warned then s
  else
    let l := s.lib.opened s.set
    { s with lib := ((l.keyChange key s.set n).settle s.set).send (.reply n key (l.keyResult key n)) }

/-- A posting number as a KEY carries it (R206). -/
def postingOk (n : Nat) : Bool := n ≤ max16

/-- A KEY whose posting number is no number of the link's is discarded (R206). -/
def keyMeaning (key : KeyName) (n : Nat) (s : State) : Host.Outcome State Fault Refusal :=
  .next (if postingOk n then keyStep key n s else quietStep s)

/-- KEY_NEXT (R134). -/
def execKeyNext (n : Nat) (s : State) : Host.Outcome State Fault Refusal := keyMeaning .next n s

/-- KEY_ACCEPT (R135). -/
def execKeyAccept (n : Nat) (s : State) : Host.Outcome State Fault Refusal := keyMeaning .accept n s

/-- KEY_REFUSE (R136). -/
def execKeyRefuse (n : Nat) (s : State) : Host.Outcome State Fault Refusal := keyMeaning .refuse n s

/-- KEY_DONE (R137). -/
def execKeyDone (n : Nat) (s : State) : Host.Outcome State Fault Refusal := keyMeaning .done n s

/-- The last presentation sent again, with the alert flag clear (R206). -/
def Lib.sendAgain (l : Lib) : Lib :=
  match l.prompts.lastSent with
  | none => l.send .blank
  | some p =>
    let p := { p with alert := false }
    ({ l with prompts := { l.prompts with lastSent := some p } }).send (.present p)

/-- HELLO (R206). One taken in FORMATTING before the clearing finds it made (R188 does not name HELLO: DESIGN
CHOICE, log 7). -/
def execHello (s : State) : Host.Outcome State Fault Refusal := .next (event (fun _ l => l.sendAgain) s)

/-- PANEL_MESSAGE_DISCARDED (R206): a discarded message changes nothing. -/
def execPanelMessageDiscarded (s : State) : Host.Outcome State Fault Refusal := .next (quietStep s)

/-! ## Deadlines and re-announcement -/

namespace Lib

/-- The manual deadline of a posting expires (R138). -/
def manualExpired (g : Settings) (n : Nat) (l : Lib) : Lib :=
  match l.posted? n with
  | some x =>
    if isDue x.2.deadlineLeft && x.2.kind.hasManualDeadline then
      match x.2.subject.tag with
      | some t => (l.complete g t .promptTimeout).raiseRequest .promptTimeout t
      | none => l
    else l
  | none => l

/-- The deadline of a host message expires (R139). -/
def messageExpired (n : Nat) (l : Lib) : Lib :=
  match l.posted? n with
  | some x => if isDue x.2.deadlineLeft && x.2.kind = .hostMessage then l.answerMessage x .timeout else l
  | none => l

/-- A posting of this urgency may take the panel from the one presented (R132). -/
def mayReturn (l : Lib) (urgency : Nat) : Bool :=
  match l.prompts.presented.bind l.posted? with
  | none => true
  | some shown => urgency ≤ shown.2.kind.urgency

/-- A re-announce timer expires, and starts again (R132). -/
def reAnnounced (g : Settings) (n : Nat) (l : Lib) : Lib :=
  match l.posted? n with
  | some x =>
    if isDue x.2.reannounceLeft then
      let p := { x.2 with reannounceLeft := some g.timers.reannounce }
      let l := l.setPrompt x.1 (some p)
      if l.prompts.presented = some n || l.mayReturn p.kind.urgency then l.display (x.1, p) true else l
    else l
  | none => l

end Lib

/-- MANUAL_DEADLINE_EXPIRY (R138). -/
def execManualDeadlineExpiry (n : Nat) (s : State) : Host.Outcome State Fault Refusal :=
  .next (event (fun g l => l.manualExpired g n) s)

/-- HOST_MESSAGE_DEADLINE_EXPIRY (R139). -/
def execHostMessageDeadlineExpiry (n : Nat) (s : State) : Host.Outcome State Fault Refusal :=
  .next (event (fun _ l => l.messageExpired n) s)

/-- RE_ANNOUNCE_EXPIRY (R132). -/
def execReAnnounceExpiry (n : Nat) (s : State) : Host.Outcome State Fault Refusal :=
  .next (event (fun g l => l.reAnnounced g n) s)

/-! ## Post Message (R142) -/

/-- A character a message may hold (R142). -/
def textChar (c : Byte) : Bool := Serial.isLetter c || Serial.isDigit c || c = Serial.space

/-- Check 1 of R142. -/
def messageOk (f : MessageBlock) : Bool :=
  let text := f.text.take f.length
  1 ≤ f.length && f.length ≤ 40 && text.length = f.length && text.all textChar
    && text.head? ≠ some Serial.space && f.mode ≤ 2 && f.deadline ≤ 7200

/-- Announce modes by their codes (R125). -/
def Announce.ofCode (n : Nat) : Announce := if n = 0 then .silent else if n = 1 then .once else .persistent

/-- The draft of a host message (R142). -/
def messageDraft (f : MessageBlock) : Lib.Draft :=
  { kind := .hostMessage, isRequest := false, subject := .nothing, detail := 0,
    text := f.text.take f.length, mode := Announce.ofCode f.mode,
    deadline := if f.deadline = 0 then none else some f.deadline }

/-- The slot number and the posting number of the message (R142). -/
def messageFields (l : Lib) (k : Nat) : List Field :=
  [{ width := 1, value := k }, { width := 2, value := l.prompts.counter }]

/-- Post Message (R142). -/
def cmdPostMessage (f : MessageBlock) (g : Settings) (l : Lib) : Applied :=
  gated .normal .none g l
    (checks [(messageOk f, .invalidField, .none)] g l
      (match l.freePromptSlot with
        | none => .refuse g l .promptTableFull .none
        | some k =>
          let l := l.postAt g k (messageDraft f)
          .good g l (messageFields l k)))

def execPostMessage (f : MessageBlock) (s : State) : Host.Outcome State Fault Refusal :=
  .next (hostStep (cmdPostMessage f) s)

/-! ## Query Prompt and Withdraw Message (R143, R144) -/

/-- Announce mode codes (R125). -/
def Announce.code : Announce → Nat
  | .silent => 0
  | .once => 1
  | .persistent => 2

/-- Answer codes (R125). -/
def Answer.code : Answer → Nat
  | .accept => 1
  | .refuse => 2
  | .timeout => 3

/-- The text field of a message: 40 characters, spaces past its length; zero where there is no text (log 11). -/
def textValue (text : List Byte) : Nat :=
  if text.isEmpty then 0
  else (text ++ List.replicate (40 - text.length) Serial.space).foldl (fun n c => n * 256 + c.toNat) 0

/-- The subject fields, each with its presence flag (R143). -/
def subjectFields (p : PromptSubject) : List Field :=
  optField 2 p.tag ++ optSerial p.volume ++ optField 1 p.drive ++ optField 2 p.cell ++ optField 1 p.slot
    ++ optField 1 (p.accessor.map accNumber)

/-- The data-in of Query Prompt for a slot that is not FREE (R143, log 11). -/
def postedFields (p : Prompt) : List Field :=
  [{ width := 1, value := if p.isPosted then 1 else 2 }, { width := 1, value := p.kind.code },
   { width := 1, value := if p.isRequest then 1 else 2 }, { width := 2, value := p.posting },
   { width := 1, value := p.kind.urgency }]
    ++ subjectFields p.subject
    ++ [{ width := 1, value := p.detail }, { width := 1, value := p.text.length },
        { width := 40, value := textValue p.text }, { width := 1, value := p.mode.code },
        flagField p.announced, { width := 5, value := clockValue p.posted }]
    ++ optField 5 (p.deadline.map clockValue)
    ++ [flagField p.wrongVolume, { width := 1, value := (p.answer.map Answer.code).getD 0 }]

/-- The data-in of Query Prompt: a FREE slot is a record of zeros of the same size (R143). -/
def promptFields (p : Option Prompt) : List Field :=
  match p with
  | some p => postedFields p
  | none =>
    let blank : Prompt :=
      { posting := 0, kind := .hostMessage, isRequest := false, subject := .nothing, detail := 0,
        text := [], mode := .silent, announced := false, posted := { day := 0, second := 0 },
        deadline := none, deadlineLeft := none, reannounceLeft := none, wrongVolume := false,
        answer := none }
    (postedFields blank).map fun f => { f with value := 0 }

/-- The slot holds an ANSWERED message (R143). -/
def answered (p : Option Prompt) : Bool := p.any fun p => p.answer.isSome

/-- Query Prompt (R143): the reading frees an ANSWERED message. -/
def cmdQueryPrompt (k : Nat) (g : Settings) (l : Lib) : Applied :=
  let p := l.prompts.slots.getD k none
  gated .normal .none g l
    (checks [(k < Config.promptSlots, .invalidField, .none)] g l
      (.good g (if answered p then l.withdrawSlot g k else l) (promptFields p)))

def execQueryPrompt (k : Nat) (s : State) : Host.Outcome State Fault Refusal :=
  .next (hostStep (cmdQueryPrompt k) s)

/-- Withdraw Message (R144). -/
def cmdWithdrawMessage (k n : Nat) (g : Settings) (l : Lib) : Applied :=
  gated .normal .none g l
    (checks
      [(k < Config.promptSlots, .invalidField, .none),
       ((l.prompts.slots.getD k none).any (fun p => p.kind = .hostMessage && p.posting = n), .promptUnknown,
        .prompt k)] g l
      (.good g (l.withdrawSlot g k) []))

def execWithdrawMessage (k n : Nat) (s : State) : Host.Outcome State Fault Refusal :=
  .next (hostStep (cmdWithdrawMessage k n) s)

end Sys2Proof.Machine
end

