-- ==== Sys2Proof/Machine/Accounts.lean ====
section
/-! DEFINITION. The account commands (R147 to R151, R158, R159), the settlement of a clock load (R160) and
the period timer (R161). -/

namespace Sys2Proof.Machine

/-- The gate and the checks of an account command; every refusal carries the account named (R147, R198). -/
def accountCommand (n : Nat) (cs : List (Bool × Sense)) (g : Settings) (l : Lib) (k : Applied) : Applied :=
  gated .normal (.account n) g l (checks (cs.map fun c => (c.1, c.2, .account n)) g l k)

/-- An account command that names an existing account (R147). -/
def onAccount (n : Nat) (g : Settings) (l : Lib) (k : Account → Applied) : Applied :=
  accountCommand n [(accountOk n, .invalidField)] g l
    (match l.account? n with
      | none => .refuse g l .accountUnknown (.account n)
      | some a => k a)

/-! ## Open, Update (R148, R149) -/

/-- The ranges of an Open or Update Account (R148). -/
def accountFieldsOk (n limit quota : Nat) : Bool := accountOk n && limit ≤ 16 && quota ≤ max16

/-- A quota of 0 means none (R148). -/
def quotaOf (quota : Nat) : Option Nat := if quota = 0 then none else some quota

/-- The record Open Account makes (R148). -/
def openedAccount (g : Settings) (n limit quota : Nat) : Account :=
  { number := n, suspended := false, limit := limit, quota := quotaOf quota, mounts := 0,
    scratchMounts := 0, driveSeconds := 0, manual := 0, refusals := 0, overflow := false, stamp := 0,
    periodStart := g.clock, lastRead := none }

/-- Adds a record at its place in ascending account numbers. -/
def Lib.addAccount (a : Account) (l : Lib) : Lib :=
  { l with acct := { l.acct with
      accounts := insertBy (fun x y => x.number < y.number) a l.acct.accounts } }

/-- Open Account (R148). -/
def cmdOpenAccount (n limit quota : Nat) (g : Settings) (l : Lib) : Applied :=
  accountCommand n
    [(accountFieldsOk n limit quota, .invalidField), ((l.account? n).isNone, .accountExists),
     (l.acct.accounts.length < Config.accountRecords, .accountTableFull)] g l
    (.good g (l.addAccount (openedAccount g n limit quota)) [])

def execOpenAccount (n limit quota : Nat) (s : State) : Host.Outcome State Fault Refusal :=
  .next (hostStep (cmdOpenAccount n limit quota) s)

/-- Update Account (R149). A raised limit counts as a resource freed (R95). -/
def cmdUpdateAccount (n limit quota : Nat) (g : Settings) (l : Lib) : Applied :=
  accountCommand n [(accountFieldsOk n limit quota, .invalidField)] g l
    (onAccount n g l fun a =>
      let l' := l.updAcct n fun a => { a with limit := limit, quota := quotaOf quota }
      .good g (if a.limit < limit then l'.wake else l') [])

def execUpdateAccount (n limit quota : Nat) (s : State) : Host.Outcome State Fault Refusal :=
  .next (hostStep (cmdUpdateAccount n limit quota) s)

/-! ## Suspend, Resume, Close (R150, R151) -/

/-- Suspend Account (R150). -/
def cmdSuspendAccount (n : Nat) (g : Settings) (l : Lib) : Applied :=
  onAccount n g l fun _ => .good g (l.updAcct n fun a => { a with suspended := true }) []

def execSuspendAccount (n : Nat) (s : State) : Host.Outcome State Fault Refusal :=
  .next (hostStep (cmdSuspendAccount n) s)

/-- Resume Account (R150). It counts as a resource freed (R95). -/
def cmdResumeAccount (n : Nat) (g : Settings) (l : Lib) : Applied :=
  onAccount n g l fun a =>
    .good g (if a.suspended then (l.updAcct n fun a => { a with suspended := false }).wake else l) []

def execResumeAccount (n : Nat) (s : State) : Host.Outcome State Fault Refusal :=
  .next (hostStep (cmdResumeAccount n) s)

/-- Some live request names the account, or it owns volumes (R151). -/
def Lib.accountInUse (l : Lib) (n : Nat) : Bool :=
  l.reqs.live.any (fun r => r.account = some n) || 0 < l.ownedCount n

/-- Removes an account record. -/
def Lib.dropAccount (n : Nat) (l : Lib) : Lib :=
  { l with acct := { l.acct with accounts := l.acct.accounts.filter fun a => a.number ≠ n } }

/-- Close Account (R151). -/
def cmdCloseAccount (n : Nat) (g : Settings) (l : Lib) : Applied :=
  onAccount n g l fun _ =>
    checks [(!l.accountInUse n, .accountBusy, .account n)] g l (.good g (l.dropAccount n) [])

def execCloseAccount (n : Nat) (s : State) : Host.Outcome State Fault Refusal :=
  .next (hostStep (cmdCloseAccount n) s)

/-! ## Read Account and Close Period (R158, R159) -/

/-- The drive-seconds still open on the account's mounted reels at `now` (R158). -/
def Lib.openSeconds (l : Lib) (now : Clock) (n : Nat) : Nat :=
  (l.mountedOf n).foldl (fun sum r =>
    satAdd max32 sum ((r.accruedFrom.map fun c => c.elapsed now).getD 0)) 0

/-- The flags byte: bit 0 quota present, bit 1 overflow (R204). -/
def accountFlags (a : Account) : Nat := (if a.quota.isSome then 1 else 0) + (if a.overflow then 2 else 0)

/-- The data-in of Read Account, 40 bytes (R204). -/
def accountFields (l : Lib) (t : Clock) (a : Account) : List Field :=
  [{ width := 2, value := a.number }, { width := 1, value := if a.suspended then 2 else 1 },
   { width := 1, value := a.limit }, { width := 2, value := a.quota.getD 0 },
   { width := 1, value := accountFlags a }, { width := 1, value := l.heldCount a.number },
   { width := 1, value := l.queuedCount a.number }, { width := 2, value := l.ownedCount a.number },
   { width := 2, value := a.mounts }, { width := 2, value := a.scratchMounts },
   { width := 4, value := a.driveSeconds }, { width := 2, value := a.manual },
   { width := 2, value := a.refusals }, { width := 2, value := a.stamp },
   { width := 5, value := clockValue a.periodStart }, { width := 5, value := clockValue t },
   { width := 1, value := (l.mountedOf a.number).length },
   { width := 4, value := l.openSeconds t a.number }]

/-- Read Account (R158). -/
def cmdReadAccount (n : Nat) (g : Settings) (l : Lib) : Applied :=
  onAccount n g l fun a =>
    .good g (l.updAcct n fun a => { a with lastRead := some g.clock }) (accountFields l g.clock a)

def execReadAccount (n : Nat) (s : State) : Host.Outcome State Fault Refusal :=
  .next (hostStep (cmdReadAccount n) s)

/-- The record after its period has been closed at `t` (R159). -/
def closedAccount (t : Clock) (a : Account) : Account :=
  { a with mounts := 0, scratchMounts := 0, driveSeconds := 0, manual := 0, refusals := 0,
           overflow := false, periodStart := t, lastRead := none }

/-- The account's requests in MOUNTED accrue from `t` on (R159, R160). -/
def Lib.accrueFrom (n : Nat) (t : Clock) (l : Lib) : Lib :=
  let from_ (r : Request) : Request :=
    if r.account = some n && r.state = .mounted then { r with accruedFrom := some t } else r
  { l with reqs := { l.reqs with live := l.reqs.live.map from_ } }

/-- Close Period (R159). -/
def cmdClosePeriod (n stamp : Nat) (g : Settings) (l : Lib) : Applied :=
  accountCommand n [(accountOk n && stamp ≤ max16, .invalidField)] g l
    (onAccount n g l fun a =>
      match a.lastRead with
      | none => .refuse g l .sequence (.account n)
      | some t =>
        checks [(stamp = a.stamp, .stalePeriod, .account n)] g l
          (.good g ((l.updAcct n (closedAccount t)).accrueFrom n t) []))

def execClosePeriod (n stamp : Nat) (s : State) : Host.Outcome State Fault Refusal :=
  .next (hostStep (cmdClosePeriod n stamp) s)

/-! ## The clock load and the period timer (R160, R161) -/

/-- One MOUNTED request is settled to the old reading, and accrues from the new one on (R160). -/
def Lib.settleMounted (old new : Clock) (l : Lib) (r : Request) : Lib :=
  match r.account, r.accruedFrom with
  | some n, some from_ =>
    (l.accrue (some n) (Account.addSeconds (from_.elapsed old))).updReq r.tag fun q =>
      { q with accruedFrom := some new }
  | _, _ => l

/-- What the accounting unit does at a load of the clock (R160). -/
def Lib.settleClock (old new : Clock) (l : Lib) : Lib :=
  let l := (l.reqs.live.filter fun r => r.state = .mounted).foldl (fun l r => l.settleMounted old new r) l
  { l with acct := { l.acct with accounts := l.acct.accounts.map fun a => { a with lastRead := none } } }

/-- The period timer expires: it starts again, and PERIOD-TIMER is raised (R161). -/
def Lib.periodExpired (g : Settings) (l : Lib) : Lib :=
  if l.acct.periodLeft = 0 then
    ({ l with acct := { l.acct with periodLeft := g.timers.period } }).raisePlain .periodTimer
  else l

/-- PERIOD_TIMER_EXPIRY (R161). -/
def execPeriodTimerExpiry (s : State) : Host.Outcome State Fault Refusal :=
  .next (event (fun g l => l.periodExpired g) s)

end Sys2Proof.Machine
end

