-- ==== Sys2Proof/Machine/LinkCmds.lean ====
section
/-! DEFINITION. The commands over the settings: the link table (R164 to R166), the attention mask and flags
(R172, R173), the clock (R190) and the timer values (R189). -/

namespace Sys2Proof.Machine

/-! ## The link table -/

/-- Action codes (R164). -/
def Action.code : Action → Nat
  | .none => 0
  | .scanStation => 1
  | .queueClean => 2
  | .auditSpan => 3
  | .postNotice => 4
  | .raiseAttention => 5

/-- The action of a code (R164). -/
def Action.ofCode? (n : Nat) : Option Action :=
  [Action.none, .scanStation, .queueClean, .auditSpan, .postNotice, .raiseAttention][n]?

/-- An exclusive action (R164). -/
def Action.exclusive : Action → Bool
  | .scanStation | .queueClean | .auditSpan => true
  | .none | .postNotice | .raiseAttention => false

/-- The action suits the source (R165). -/
def Action.suits (a : Action) (source : Nat) : Bool :=
  match a with
  | .none | .scanStation | .raiseAttention => true
  | .queueClean => source = 3 || source = 4 || source = 5 || source = 12
  | .auditSpan => source = 2 || source = 6 || source = 7
  | .postNotice => source = 4 || source = 8 || source = 10 || source = 11

/-- The entry of a source in a table (R164). -/
def entryOf (links : List Action) (source : Nat) : Action := links.getD (source - 1) .none

/-- The other source that names an exclusive action (R165). -/
def linkHolder? (links : List Action) (source : Nat) (a : Action) : Option Nat :=
  if a.exclusive then ((List.range 12).map (· + 1)).find? fun n => n ≠ source && entryOf links n = a else none

/-- The twelve action codes (R166). -/
def linkFields (links : List Action) : List Field := links.map fun a => { width := 1, value := a.code }

/-- Set Link (R166). -/
def cmdSetLink (source action : Nat) (g : Settings) (l : Lib) : Applied :=
  gated .normal .none g l
    (match (if 1 ≤ source && source ≤ 12 then Action.ofCode? action else none) with
      | none => .refuse g l .invalidField .none
      | some a =>
        checks [(a.suits source, .linkInvalid, .source source)] g l
          (match linkHolder? g.links source a with
            | some n => .refuse g l .linkConflict (.source n)
            | none =>
              let g' := { g with links := g.links.set (source - 1) a }
              .good g' l (linkFields g'.links)))

def execSetLink (source action : Nat) (s : State) : Host.Outcome State Fault Refusal :=
  .next (hostStep (cmdSetLink source action) s)

/-- Read Links (R166). -/
def cmdReadLinks (g : Settings) (l : Lib) : Applied := gated .normal .none g l (.good g l (linkFields g.links))

def execReadLinks (s : State) : Host.Outcome State Fault Refusal := .next (hostStep cmdReadLinks s)

/-! ## Attention -/

/-- Set Attention Mask (R172): bits 5 to 7 must be zero. -/
def cmdSetAttentionMask (mask : Nat) (g : Settings) (l : Lib) : Applied :=
  gated .unformattedToo .none g l
    (checks [(mask < 32, .invalidField, .none)] g l (.good { g with mask := BitVec.ofNat 8 mask } l []))

def execSetAttentionMask (mask : Nat) (s : State) : Host.Outcome State Fault Refusal :=
  .next (hostStep (cmdSetAttentionMask mask) s)

/-- The data-in of Read Attention (R173). -/
def attentionFields (g : Settings) (l : Lib) : List Field :=
  [{ width := 1, value := l.att.causes.toNat }, { width := 1, value := g.mask.toNat },
   { width := 2, value := l.att.linked.toNat }]

/-- Read Attention (R173): the record is formed, then the flags and the set are cleared. -/
def cmdReadAttention (g : Settings) (l : Lib) : Applied :=
  gated .unformattedToo .none g l (.good g l.clearAttention (attentionFields g l))

def execReadAttention (s : State) : Host.Outcome State Fault Refusal := .next (hostStep cmdReadAttention s)

/-! ## Set Clock (R190) -/

/-- A clock reading moved by the difference between two readings (R190). -/
def Clock.moved (old new : Clock) (c : Clock) : Clock := Clock.ofAbs (c.abs + (old.elapsed new))

/-- A prompt with its deadline moved with the clock (R190). -/
def Prompt.moveDeadline (old new : Clock) (p : Prompt) : Prompt :=
  { p with deadline := p.deadline.map (Clock.moved old new) }

/-- The deadlines kept as clock readings are moved with the clock (R190). The deadline is a field of the posting
(R125): where the presented one's changes, the posting is sent again, its alert clear (R130, log 58). -/
def Lib.moveDeadlines (old new : Clock) (l : Lib) : Lib :=
  let shown := (l.prompts.presented.bind l.posted?).map Prod.snd
  let l := { l with prompts :=
    { l.prompts with slots := l.prompts.slots.map (Option.map (Prompt.moveDeadline old new)) } }
  match shown with
  | some p => if p.moveDeadline old new = p then l else l.refresh p.posting false
  | none => l

/-- Set Clock (R190). -/
def cmdSetClock (day second : Nat) (g : Settings) (l : Lib) : Applied :=
  let new : Clock := { day := day, second := second }
  gated .unformattedToo .none g l
    (checks [(day ≤ max16 && second ≤ 86399, .invalidField, .none)] g l
      (.good { g with clock := new, clockSet := true }
        ((l.settleClock g.clock new).moveDeadlines g.clock new) []))

def execSetClock (day second : Nat) (s : State) : Host.Outcome State Fault Refusal :=
  .next (hostStep (cmdSetClock day second) s)

/-! ## Set Timers (R189) -/

/-- A value lies in a range. -/
def inRange (lo hi n : Nat) : Bool := lo ≤ n && n ≤ hi

/-- The check of R189: some value is named, and every value named is in its range. -/
def timersOk (f : TimersBlock) : Bool :=
  (f.step.named || f.threading.named || f.unload.named || f.manual.named || f.reannounce.named
      || f.stall.named || f.period.named || f.threshold.named)
    && f.step.ok (inRange 30 600) && f.threading.ok (inRange 30 600) && f.unload.ok (inRange 60 900)
    && f.manual.ok (inRange 60 7200) && f.reannounce.ok (inRange 10 600) && f.stall.ok (inRange 60 7200)
    && f.period.ok (inRange 3600 604800) && f.threshold.ok (inRange 0 4096)

/-- The setting a change leaves. -/
def setting (c : Change) (old : Nat) : Nat := if c.named then c.value else old

/-- The values after a Set Timers (R189). -/
def timersAfter (f : TimersBlock) (t : Timers) : Timers :=
  { step := setting f.step t.step
    threading := setting f.threading t.threading
    unload := setting f.unload t.unload
    manual := setting f.manual t.manual
    reannounce := setting f.reannounce t.reannounce
    stall := setting f.stall t.stall
    period := setting f.period t.period
    threshold := setting f.threshold t.threshold }

/-- The eight values as Set Timers returns them (R189). -/
def timersFields (t : Timers) : List Field :=
  [{ width := 2, value := t.step }, { width := 2, value := t.threading }, { width := 2, value := t.unload },
   { width := 2, value := t.manual }, { width := 2, value := t.reannounce },
   { width := 2, value := t.stall }, { width := 3, value := t.period },
   { width := 2, value := t.threshold }]

/-- What a change of the values does at once: a changed period length restarts the period timer (R161), and
a changed threshold makes the condition be evaluated (R9). -/
def Lib.timersChanged (old new : Settings) (l : Lib) : Lib :=
  let l := if new.timers.period = old.timers.period then l
    else { l with acct := { l.acct with periodLeft := new.timers.period } }
  if new.timers.threshold = old.timers.threshold then l else l.evalLow new

/-- Set Timers (R189). -/
def cmdSetTimers (f : TimersBlock) (g : Settings) (l : Lib) : Applied :=
  gated .normal .none g l
    (checks [(timersOk f, .invalidField, .none)] g l
      (let g' := { g with timers := timersAfter f g.timers }
       .good g' (l.timersChanged g g') (timersFields g'.timers)))

def execSetTimers (f : TimersBlock) (s : State) : Host.Outcome State Fault Refusal :=
  .next (hostStep (cmdSetTimers f) s)

end Sys2Proof.Machine
end

