-- ==== Sys2Proof/Machine/StartUp.lean ====
section
/-! DEFINITION. Power (R176, R179 to R182, R202, R207), the phases of start-up (R184 to R186), the library
definition and the format (R27, R187, R188), and Test Ready, Request Sense and Inquire (R178, R199). -/

namespace Sys2Proof.Machine

/-! ## Power-on -/

/-- Every field of a definition is in its range (R26, R175). -/
def LibDef.inRange (d : LibDef) : Bool :=
  3 ≤ d.columns && d.columns ≤ 48 && 1 ≤ d.perColumn && d.perColumn ≤ 64
    && d.columns * d.perColumn ≤ 3072 && d.stationColumn < d.columns
    && 1 ≤ d.autoDensity && d.autoDensity ≤ 3

/-- The image as the store check finds it (R175, R179): a format broken off before its header was written
left a bad mark (R188), and `kept` says that the check word still agrees. A bad image is marked as one whose
check word does not agree. The pending definition is lost (R26). -/
def Store.afterLoss (s : Store) (clearing kept : Bool) : Store :=
  { s with mark := s.mark && !clearing, checked := s.checked && kept && s.lib.inRange, pendingDef := none }

/-- A cell keeps its state and volume, and loses a reservation mark (R32). -/
def Cell.unmark : Cell → Cell
  | .empty _ => .empty none
  | c => c

/-- The records at power-on over the image found (R23, R32, R33, R63, R93, R124, R145, R162, R174). -/
def Lib.powered (store : Store) (l : Lib) : Lib :=
  if store.mark && store.checked then
    { Lib.blank with
      store := store
      cat := { vols := l.cat.vols.map fun v => { v with holder := none }, scratch := [], low := false }
      place := PlaceUnit.powerOn (l.place.cells.map Cell.unmark)
      drives := l.drives.map fun v => Drive.powerOn v.defn
      rail := Rail.powerOn (store.lib.columns - 1)
      acct := { accounts := l.acct.accounts.map fun a => { a with lastRead := none }, periodLeft := 86400 } }
  else { Lib.blank with store := store }

/-- The messages of the start of the links: START to every address, UNLOCK, BLANK (R33, R205, R207). -/
def startMessages : List Msg :=
  [.startAccessor .a, .startAccessor .b] ++ (List.range Config.drives).map Msg.startDrive
    ++ [.startStation, .startDoor, .unlock, .blank]

/-- The answers to START, taken as reports (R33, R119, R207). -/
def Lib.answers (g : Settings) (doorOpen serviceOpen : Bool) (slots : List Reading) (l : Lib) : Lib :=
  let l := if doorOpen then l else l.doorClosed g
  let l := (List.range Config.stationSlots).foldl (fun l k => l.slotReport g k (slots.getD k .empty)) l
  if serviceOpen then l.serviceOpened g else l

/-- Cleaning-due is set for each drive at or above its threshold (R63). -/
def dueAtPowerOn (v : Drive) : Drive :=
  { v with cleanDue := v.defn.any fun def_ => def_.threshold ≤ def_.sinceClean }

/-- The numbers of the cells recorded AWAITED (R179). -/
def Lib.awaitedCells (l : Lib) : List Nat :=
  (List.range l.place.cells.length).filter fun n => match l.cell n with
    | .awaited _ => true
    | _ => false

/-- A volume recorded ON-DRIVE at an undefined drive is MISSING (R180). -/
def Lib.loseUndefined (g : Settings) (l : Lib) (v : Volume) : Lib :=
  match v.state with
  | .onDrive d => if (l.drive d).defn.isNone then l.loseVolume g v.serial (.empty none) else l
  | _ => l

/-- A STATION volume that is not in its slot, or cannot be taken in, goes to SHELF without a home (R182). -/
def Lib.toShelf (g : Settings) (s : Serial) (l : Lib) : Lib :=
  (l.clearHome g s (.empty none)).moveVol g s .shelf

/-- A STATION volume is settled against the slot its place names (R182). -/
def Lib.settleStation (g : Settings) (l : Lib) (v : Volume) : Lib :=
  match v.state with
  | .station k =>
    if l.slot k = .inbound (some v.serial) then
      match v.homeCell, l.freeCell? with
      | none, none => (l.toShelf g v.serial).rejectSlot g k (some v.serial) .libraryFull
      | home, free =>
        if l.entryFree then
          l.startImport g k (some v.serial) v.serial (if home.isSome then none else free)
        else l.toShelf g v.serial
    else l.toShelf g v.serial
  | _ => l

/-- HOLDING-QUERY goes to a defined drive, bounded by the step limit (R180). -/
def Lib.queryDrive (g : Settings) (l : Lib) (d : Nat) : Lib :=
  if (l.drive d).defn.isSome then
    (l.updDrive d fun v => { v with queried := true, queryLeft := some g.timers.step }).send (.holdingQuery d)
  else l

/-- The beginning of the reconcile phase (R180, R182); STATION volumes are settled in ascending serial order
(log 49). -/
def Lib.reconcile (g : Settings) (l : Lib) : Lib :=
  let l := { l with start := { l.start with phase := .reconcile } }
  let l := l.cat.vols.foldl (fun l v => l.loseUndefined g v) l
  let l := (List.range Config.drives).foldl (fun l d => l.queryDrive g d) l
  let l := (l.sendQuery g .a .reconcile).sendQuery g .b .reconcile
  l.cat.vols.foldl (fun l v => l.settleStation g v) l

/-- The store check (R179). -/
def Lib.storeCheck (g : Settings) (l : Lib) : Lib :=
  if l.goodImage then
    let l := { l with drives := l.drives.map dueAtPowerOn }
    let l := l.placeAllOnScratch.evalLow g
    let l := { l with start := { l.start with awaited := l.awaitedCells } }
    l.reconcile g
  else { l with start := { l.start with state := .unformatted, limit := .stopped } }

/-- POWER_ON (R179, R207): volatile state, the start of the links and their answers, and the store check. -/
def execPowerOn (unit : Nat) (kept doorOpen serviceOpen : Bool) (slots : List Reading) (s : State) :
    Host.Outcome State Fault Refusal :=
  let g := Settings.powerOn (unit % 8)
  let l := s.lib.powered (s.lib.store.afterLoss s.lib.start.clearing kept)
  let l := { l with out := startMessages }
  let l := (l.answers g doorOpen serviceOpen slots).storeCheck g
  .next { s with set := g, port := Port.powerOn, lib := l.settle g }

/-- The connection ends: the port is FREE, its lines are released and its timer is stopped (R192). -/
def Port.ends (p : Port) : Port :=
  { p with conn := .free, req := false, block := [], outData := [], outLeft := 0, inData := [],
           status := 0, line := 0, stall := none }

/-- POWER_FAIL_WARNING (R176, R202): nothing further is taken until power-on, and a connection ends. -/
def execPowerFailWarning (s : State) : Host.Outcome State Fault Refusal :=
  .next (if s.set.warned then s
    else { s with set := { s.set with warned := true }, port := s.port.ends, lib := s.lib.begin })

/-! ## The phases -/

/-- The audit phase begins when the reconcile phase and the homing have ended (R184). -/
def Lib.toAudits (g : Settings) (l : Lib) : Lib :=
  if l.start.state = .starting && l.start.phase = .reconcile && l.reconciled && l.homed then l.beginAudits g
  else l

/-- AUDIT_PHASE (R184). -/
def execAuditPhase (s : State) : Host.Outcome State Fault Refusal :=
  .next (event (fun g l => l.toAudits g) s)

/-- The library is ready to enter READY: after the audits of start-up, or the homing of a format (R185,
R188). -/
def Lib.mayEnter (l : Lib) : Bool :=
  match l.start.state with
  | .starting => l.start.phase = .audit && l.auditsDone
  | .formatting => !l.start.clearing && l.homed
  | _ => false

/-- ENTER_READY (R185). -/
def execEnterReady (s : State) : Host.Outcome State Fault Refusal :=
  .next (event (fun g l => if l.mayEnter then l.enterReady g else l) s)

/-- The start limit expires: every HELD request ends NOT-READY, in ascending arrival sequence (R71, R186). -/
def Lib.startExpired (g : Settings) (l : Lib) : Lib :=
  if l.start.limit = .running 0 then
    (l.heldTags.foldl (fun (l : Lib) t => l.complete g t .notReady)
      { l with start := { l.start with limit := .expired } }).orderJoined l.cat.scratch
  else l

/-- START_LIMIT_EXPIRY (R186). -/
def execStartLimitExpiry (s : State) : Host.Outcome State Fault Refusal :=
  .next (event (fun g l => l.startExpired g) s)

/-- FORMAT_CLEARING (R188): the clearing that every event finds made before it is itself an event's work. -/
def execFormatClearing (s : State) : Host.Outcome State Fault Refusal := .next (event (fun _ l => l) s)

/-! ## Define Library and Format Catalogue -/

/-- Check 1 of R27. -/
def libraryFieldsOk (f : LibraryBlock) : Bool :=
  3 ≤ f.columns && f.columns ≤ 48 && 1 ≤ f.perColumn && f.perColumn ≤ 64
    && f.columns * f.perColumn ≤ 3072 && f.stationColumn < f.columns && f.autoEnter ≤ 1
    && 1 ≤ f.autoDensity && f.autoDensity ≤ 3 && (f.startMode = 1 || f.startMode = 2)

/-- Check 2 of R27. -/
def disabledOk (f : LibraryBlock) : Bool :=
  f.disabled.length ≤ 255 && f.disabled.all (· < f.columns * f.perColumn) && decide f.disabled.Nodup

/-- The definition a block carries (R27). -/
def LibDef.ofBlock (f : LibraryBlock) : LibDef :=
  { columns := f.columns, perColumn := f.perColumn, stationColumn := f.stationColumn,
    autoEnter := f.autoEnter = 1, autoDensity := f.autoDensity, fullStart := f.startMode = 2 }

/-- What takes effect at once in READY (R27). -/
def LibDef.adopt (old new : LibDef) : LibDef :=
  { new with columns := old.columns, perColumn := old.perColumn }

/-- Define Library (R27). -/
def cmdDefineLibrary (f : LibraryBlock) (g : Settings) (l : Lib) : Applied :=
  let def_ := LibDef.ofBlock f
  let ready := l.start.state = .ready
  gated .unformattedToo .none g l
    (checks
      [(l.start.state = .unformatted || (ready && l.reqs.live.isEmpty), .sequence, .none),
       (libraryFieldsOk f, .invalidField, .none), (disabledOk f, .invalidField, .none)] g l
      (.good g { l with store := { l.store with
        lib := if ready then l.store.lib.adopt def_ else l.store.lib
        pendingDef := some { lib := def_, disabled := f.disabled } } } []))

def execDefineLibrary (f : LibraryBlock) (s : State) : Host.Outcome State Fault Refusal :=
  .next (hostStep (cmdDefineLibrary f) s)

/-- Format Catalogue (R187): the library enters FORMATTING, and steps 1 to 3 of R188 are still to be made. -/
def cmdFormatCatalogue (g : Settings) (l : Lib) : Applied :=
  gated .unformattedToo .none g l
    (checks
      [(l.store.pendingDef.isSome, .sequence, .none), (!l.rail.interlock, .sequence, .none),
       (l.reqs.live.isEmpty, .requestState, .none)] g l
      (.good g { l with start := { l.start with state := .formatting, clearing := true } } []))

def execFormatCatalogue (s : State) : Host.Outcome State Fault Refusal := .next (hostStep cmdFormatCatalogue s)

/-! ## Test Ready, Request Sense, Inquire -/

/-- Test Ready (R178). -/
def cmdTestReady (g : Settings) (l : Lib) : Applied :=
  match l.start.state with
  | .ready => .good g l []
  | .starting => .refuse g l .notReady .none
  | .formatting => .refuse g l .notReady .none
  | .unformatted => .refuse g l .notFormatted .none

def execTestReady (s : State) : Host.Outcome State Fault Refusal := .next (hostStep cmdTestReady s)

/-- Sense codes (R198). -/
def Sense.code : Sense → Nat
  | .notReady => 0x01
  | .notFormatted => 0x02
  | .sequence => 0x03
  | .invalidCommand => 0x04
  | .invalidField => 0x05
  | .clockUnset => 0x06
  | .volumeUnknown => 0x10
  | .volumeExists => 0x11
  | .volumeInUse => 0x12
  | .volumeState => 0x13
  | .catalogueFull => 0x14
  | .cellState => 0x15
  | .ringAbsent => 0x16
  | .notExpired => 0x17
  | .noScratch => 0x18
  | .tagInUse => 0x20
  | .tagUnknown => 0x21
  | .requestState => 0x22
  | .noEligibleDrive => 0x23
  | .driveState => 0x24
  | .noCleaner => 0x25
  | .accountUnknown => 0x30
  | .accountSuspended => 0x31
  | .quota => 0x32
  | .accountExists => 0x33
  | .accountTableFull => 0x34
  | .stalePeriod => 0x35
  | .accountBusy => 0x36
  | .promptTableFull => 0x40
  | .promptUnknown => 0x41
  | .linkConflict => 0x50
  | .linkInvalid => 0x51
  | .doorOpen => 0x60
  | .accessorState => 0x61

/-- A number in bytes 2 to 3 of the sense record, with bytes 4 to 7 zero (R198). -/
def numberFields (kind n : Nat) : List Field :=
  [{ width := 1, value := kind }, { width := 2, value := n }, { width := 4, value := 0 }]

/-- The subject kind and the subject (R198). -/
def Subject.fields : Subject → List Field
  | .none => numberFields 0 0
  | .serial s => [{ width := 1, value := 1 }, { width := 6, value := s.key }]
  | .tag n => numberFields 2 n
  | .cell n => numberFields 3 n
  | .account n => numberFields 4 n
  | .drive n => numberFields 5 n
  | .slot n => numberFields 6 n
  | .source n => numberFields 7 n
  | .accessor n => numberFields 8 n
  | .prompt n => numberFields 9 n

/-- The 8 bytes of the sense record (R198). -/
def senseFields (r : Option SenseRecord) : List Field :=
  match r with
  | some r => { width := 1, value := r.code.code } :: r.subject.fields
  | none => { width := 1, value := 0 } :: Subject.fields .none

/-- Request Sense (R199): the record is returned and cleared. -/
def execRequestSense (s : State) : Host.Outcome State Fault Refusal :=
  .next (if s.set.warned then s
    else { s with lib := s.lib.begin
                  port := { s.port with sense := none, last := some (.good (senseFields s.port.sense)) } })

/-- Library state codes (R177). -/
def LibState.code : LibState → Nat
  | .ready => 0
  | .starting => 1
  | .unformatted => 2
  | .formatting => 3

/-- The end byte: the library state, with 80h while the interlock flag is set (R197). -/
def endByte (l : Lib) : Nat := l.start.state.code + if l.rail.interlock then 0x80 else 0

/-- "SORMAFEN" and "EMTREL LC-40" (R199, log 1). -/
def vendorText : List Nat := [0x53, 0x4F, 0x52, 0x4D, 0x41, 0x46, 0x45, 0x4E]
def partText : List Nat := [0x45, 0x4D, 0x54, 0x52, 0x45, 0x4C, 0x20, 0x4C, 0x43, 0x2D, 0x34, 0x30]

/-- The data-in of Inquire (R199); the revision byte is a free value (log 12). -/
def inquireFields (g : Settings) (l : Lib) : List Field :=
  vendorText.map (fun c => { width := 1, value := c }) ++ partText.map (fun c => { width := 1, value := c })
    ++ [{ width := 1, value := Config.revision.toNat }, { width := 1, value := g.unit },
        { width := 1, value := endByte l }, flagField g.clockSet,
        { width := 2, value := Config.volumeRecords },
        { width := 2, value := if l.start.state = .unformatted then 0 else l.place.cells.length },
        { width := 1, value := Config.drives }, { width := 1, value := Config.stationSlots },
        { width := 1, value := Config.requestEntries }, { width := 1, value := Config.hostEntries },
        { width := 1, value := Config.promptSlots }, { width := 1, value := Config.accountRecords }]

/-- Inquire (R199). -/
def cmdInquire (g : Settings) (l : Lib) : Applied := .good g l (inquireFields g l)

def execInquire (s : State) : Host.Outcome State Fault Refusal := .next (hostStep cmdInquire s)

end Sys2Proof.Machine
end

