-- ==== Sys2Proof/Machine/Operands.lean ====
section
/-! DEFINITION. The command blocks of the request link (R194, R195, R203): their lengths, the places of their
fields, the commands they spell, and the bytes of the data returned. -/

namespace Sys2Proof.Machine

/-! ## Bytes and numbers -/

/-- The number that bytes spell, the most significant first (00_scope, "Numbers and codes"). -/
def number (bs : List Byte) : Nat := bs.foldl (fun n b => n * 256 + b.toNat) 0

/-- The `width` bytes of a number, the most significant first. -/
def bytesOf : Nat → Nat → List Byte
  | 0, _ => []
  | width + 1, n => bytesOf width (n / 256) ++ [BitVec.ofNat 8 n]

/-- The bytes of a data-in record (R196). -/
def Field.bytes (f : Field) : List Byte := bytesOf f.width f.value

def dataBytes (fs : List Field) : List Byte := fs.flatMap Field.bytes

/-! ## Block shapes -/

/-- The length of a block by the group of its code; none for C0h to FFh (R194). -/
def blockLength (code : Nat) : Option Nat :=
  if code < 0x40 then some 6 else if code < 0x80 then some 10 else if code < 0xC0 then some 16 else none

/-- The bytes that end a block with its parameter length (R195). -/
def lengthBytes (code : Nat) : Nat := if code < 0x40 then 0 else if code < 0x80 then 1 else 2

/-- The room a block has for fields: from byte 1 up to the parameter length (R195). -/
def fieldRoom (code : Nat) : Nat := ((blockLength code).getD 1) - 1 - lengthBytes code

/-- The widths of a command's fields in the order its rule lists them; none for a code that is not in the
table of R194. -/
def fieldWidths (code : Nat) : Option (List Nat) :=
  match code with
  | 0x00 | 0x03 | 0x07 | 0x0A | 0x18 | 0x19 | 0x31 | 0x81 => some []
  | 0x08 | 0x1C | 0x20 | 0x25 | 0x34 => some [1]
  | 0x10 | 0x11 | 0x12 | 0x14 | 0x28 | 0x29 | 0x2A | 0x2C => some [2]
  | 0x1D | 0x1E | 0x30 => some [1, 1]
  | 0x24 => some [1, 2]
  | 0x40 => some [2, 6, 1, 2, 1, 1, 1]
  | 0x41 => some [2, 1, 1, 2, 1, 2]
  | 0x42 => some [2, 6, 1]
  | 0x43 => some [2, 1, 1]
  | 0x44 => some [2, 1, 1, 1]
  | 0x48 => some [6, 1, 2, 1, 1, 2, 1]
  | 0x49 | 0x4B => some [6]
  | 0x4A => some [6, 1, 1, 1, 1, 1, 2, 2, 1, 1, 1]
  | 0x4C => some [6, 1]
  | 0x4D => some [6, 1, 1, 2]
  | 0x4E => some [1, 4]
  | 0x50 | 0x51 => some [2, 1, 2]
  | 0x52 => some [2, 2]
  | 0x54 => some [2, 1]
  | 0x58 => some [2, 3]
  | 0x59 => some [1, 1, 1, 1, 1, 1, 1, 1]
  | 0x80 => some [1, 1, 1, 1, 1, 1, 1]
  | 0x82 => some [1, 1, 1, 1, 1, 1, 1, 1, 1, 1, 1, 2, 1]
  | 0x84 => some [1, 1, 2]
  | _ => none

/-- A code of the table of R194. -/
def knownCode (code : Nat) : Bool := (fieldWidths code).isSome

/-- The fields a block holds, up to the first that does not fit whole (R195). -/
def fitting : Nat → List Nat → List Nat
  | _, [] => []
  | room, w :: ws => if w ≤ room then w :: fitting (room - w) ws else []

/-- The widths of the fields carried in the block. -/
def blockFields (code : Nat) : List Nat := fitting (fieldRoom code) ((fieldWidths code).getD [])

/-- The widths of the fields carried in the data-out: those that do not fit in the block, and for Set Timers
its eight values (R189, R195). -/
def outFields (code : Nat) : List Nat :=
  if code = 0x59 then [2, 2, 2, 2, 2, 2, 3, 2]
  else ((fieldWidths code).getD []).drop (blockFields code).length

/-- The required parameter length of a whole block (R195, R203). The disabled-cell count of Define Library stands in
one byte, block byte 7, after the six fields of the definition (log 11). -/
def requiredLength (code : Nat) (block : List Byte) : Nat :=
  if code = 0x80 then 2 * (block.getD 7 0).toNat
  else if code = 0x84 then 40
  else (outFields code).foldl (· + ·) 0

/-- The parameter length a block carries (R195). -/
def parameterLength (code : Nat) (block : List Byte) : Nat :=
  number (block.drop (block.length - lengthBytes code))

/-- Bytes cut into fields of the widths given. -/
def cut : List Nat → List Byte → List (List Byte)
  | [], _ => []
  | w :: ws, bs => bs.take w :: cut ws (bs.drop w)

/-- The bytes of a block that no field fills are reserved, and must be zero (R194 to R196). -/
def reservedZero (code : Nat) (block : List Byte) : Bool :=
  let used := 1 + (blockFields code).foldl (· + ·) 0
  ((block.take (block.length - lengthBytes code)).drop used).all (· = 0)

/-! ## The commands that blocks spell -/

/-- Numbers of two bytes in turn (R195, Define Library). -/
def pairs : Nat → List Byte → List Nat
  | 0, _ => []
  | n + 1, bs => number (bs.take 2) :: pairs n (bs.drop 2)

/-- The change set of an Update Volume, its flags before its values (R19, log 13). -/
def updateOf (n : Nat → Nat) : UpdateBlock :=
  { owner := ⟨n 1, n 6⟩, expiry := ⟨n 2, n 7⟩, ring := ⟨n 3, n 8⟩, uses := ⟨n 4, n 9⟩,
    density := ⟨n 5, n 10⟩ }

/-- The change set of a Set Timers (R189, log 13). -/
def timersOf (n : Nat → Nat) : TimersBlock :=
  { step := ⟨n 0, n 8⟩, threading := ⟨n 1, n 9⟩, unload := ⟨n 2, n 10⟩, manual := ⟨n 3, n 11⟩,
    reannounce := ⟨n 4, n 12⟩, stall := ⟨n 5, n 13⟩, period := ⟨n 6, n 14⟩, threshold := ⟨n 7, n 15⟩ }

def driveOf (n : Nat → Nat) : DriveBlock :=
  { drive := n 0, kind := n 1, column := n 2, density1 := n 3, density2 := n 4, density3 := n 5,
    pathCount := n 6, path1 := n 7, path2 := n 8, path3 := n 9, path4 := n 10, threshold := n 11,
    resetCleaning := n 12 }

def libraryOf (n : Nat → Nat) (out : List Byte) : LibraryBlock :=
  { columns := n 0, perColumn := n 1, stationColumn := n 2, autoEnter := n 3, autoDensity := n 4,
    startMode := n 5, disabled := pairs (n 6) out }

def mountOf (n : Nat → Nat) (s : Serial) : MountBlock :=
  { tag := n 0, serial := s, path := n 2, account := n 3, priority := n 4, access := n 5,
    manualAllowed := n 6 }

def scratchOfFields (n : Nat → Nat) : ScratchBlock :=
  { tag := n 0, density := n 1, path := n 2, account := n 3, priority := n 4, expiryDays := n 5 }

def enterOf (n : Nat → Nat) (s : Serial) : EnterBlock :=
  { serial := s, classCode := n 1, owner := n 2, density := n 3, ring := n 4, expiry := n 5, uses := n 6 }

/-- The six-byte command of a code (R194). -/
def spelled6 (code : Nat) (n : Nat → Nat) : Option Instr :=
  match code with
  | 0x00 => some .testReady
  | 0x03 => some .requestSense
  | 0x07 => some .readAttention
  | 0x08 => some (.setAttentionMask (n 0))
  | 0x0A => some .inquire
  | 0x10 => some (.cancel (n 0))
  | 0x11 => some (.releaseRequest (n 0))
  | 0x12 => some (.dismount (n 0))
  | 0x14 => some (.queryRequest (n 0))
  | 0x18 => some .resumeLibrary
  | 0x19 => some .scanStation
  | 0x1C => some (.confirmDrive (n 0))
  | 0x1D => some (.varyDrive (n 0) (n 1))
  | 0x1E => some (.varyPath (n 0) (n 1))
  | 0x20 => some (.queryDrive (n 0))
  | 0x24 => some (.withdrawMessage (n 0) (n 1))
  | 0x25 => some (.queryPrompt (n 0))
  | 0x28 => some (.suspendAccount (n 0))
  | 0x29 => some (.resumeAccount (n 0))
  | 0x2A => some (.closeAccount (n 0))
  | 0x2C => some (.readAccount (n 0))
  | 0x30 => some (.setLink (n 0) (n 1))
  | 0x31 => some .readLinks
  | 0x34 => some (.restoreAccessor (n 0))
  | _ => none

/-- The ten-byte or sixteen-byte command of a code (R194); `s i` is field i read as a serial. -/
def spelledLong (code : Nat) (n : Nat → Nat) (s : Nat → Serial) (out : List Byte) : Option Instr :=
  match code with
  | 0x40 => some (.mount (mountOf n (s 1)))
  | 0x41 => some (.mountScratch (scratchOfFields n))
  | 0x42 => some (.eject (n 0) (s 1) (n 2))
  | 0x43 => some (.cleanDrive (n 0) (n 1) (n 2))
  | 0x44 => some (.audit (n 0) (n 1) (n 2) (n 3))
  | 0x48 => some (.enterVolume (enterOf n (s 0)))
  | 0x49 => some (.queryVolume (s 0))
  | 0x4A => some (.updateVolume (s 0) (updateOf n))
  | 0x4B => some (.retireVolume (s 0))
  | 0x4C => some (.releaseToScratch (s 0) (n 1))
  | 0x4D => some (.listVolumes (s 0) (n 1) (n 2) (n 3))
  | 0x4E => some (.listRequests (n 0) (n 1))
  | 0x50 => some (.openAccount (n 0) (n 1) (n 2))
  | 0x51 => some (.updateAccount (n 0) (n 1) (n 2))
  | 0x52 => some (.closePeriod (n 0) (n 1))
  | 0x54 => some (.setCell (n 0) (n 1))
  | 0x58 => some (.setClock (n 0) (n 1))
  | 0x59 => some (.setTimers (timersOf n))
  | 0x80 => some (.defineLibrary (libraryOf n out))
  | 0x81 => some .formatCatalogue
  | 0x82 => some (.defineDrive (driveOf n))
  | 0x84 => some (.postMessage { length := n 0, text := out, mode := n 1, deadline := n 2 })
  | _ => none

/-- The command that a whole block and its data-out spell (R194, R195). -/
def spelled (block out : List Byte) : Option Instr :=
  let code := (block.getD 0 0).toNat
  let fields := cut (blockFields code) (block.drop 1) ++ cut (outFields code) out
  let n (i : Nat) : Nat := number (fields.getD i [])
  let s (i : Nat) : Serial := Serial.ofBytes (fields.getD i [])
  if code < 0x40 then spelled6 code n else spelledLong code n s out

/-- The subject of a refusal made by the port: the serial or the account that the block names (R16, R147,
R198, log 14). -/
def blockSubject (block : List Byte) : Subject :=
  let code := (block.getD 0 0).toNat
  if 0x48 ≤ code && code ≤ 0x4D then .serial (Serial.ofBytes (block.drop 1))
  else if [0x28, 0x29, 0x2A, 0x2C, 0x50, 0x51, 0x52].contains code then
    .account (number ((block.drop 1).take 2))
  else .none

/-- The commands a FORMATTING library takes (R177, R195). -/
def takenInFormat (code : Nat) : Bool := [0x00, 0x03, 0x0A, 0x18].contains code

/-- What applying a host command comes to; Request Sense, which reads the port, stands apart. -/
def hostCommand : Instr → Option (Settings → Lib → Applied)
  | .testReady => some cmdTestReady
  | .readAttention => some cmdReadAttention
  | .setAttentionMask mask => some (cmdSetAttentionMask mask)
  | .inquire => some cmdInquire
  | .cancel tag => some (cmdCancel tag)
  | .releaseRequest tag => some (cmdReleaseRequest tag)
  | .dismount tag => some (cmdDismount tag)
  | .queryRequest tag => some (cmdQueryRequest tag)
  | .resumeLibrary => some cmdResumeLibrary
  | .scanStation => some cmdScanStation
  | .confirmDrive d => some (cmdConfirmDrive d)
  | .varyDrive d a => some (cmdVaryDrive d a)
  | .varyPath p a => some (cmdVaryPath p a)
  | .queryDrive d => some (cmdQueryDrive d)
  | .withdrawMessage k n => some (cmdWithdrawMessage k n)
  | .queryPrompt k => some (cmdQueryPrompt k)
  | .suspendAccount n => some (cmdSuspendAccount n)
  | .resumeAccount n => some (cmdResumeAccount n)
  | .closeAccount n => some (cmdCloseAccount n)
  | .readAccount n => some (cmdReadAccount n)
  | .setLink source action => some (cmdSetLink source action)
  | .readLinks => some cmdReadLinks
  | .restoreAccessor n => some (cmdRestoreAccessor n)
  | .mount f => some (cmdMount f)
  | .mountScratch f => some (cmdMountScratch f)
  | .eject tag s p => some (cmdEject tag s p)
  | .cleanDrive tag d p => some (cmdCleanDrive tag d p)
  | .audit tag first last p => some (cmdAudit tag first last p)
  | .enterVolume f => some (cmdEnterVolume f)
  | .queryVolume s => some (cmdQueryVolume s)
  | .updateVolume s f => some (cmdUpdateVolume s f)
  | .retireVolume s => some (cmdRetireVolume s)
  | .releaseToScratch s force => some (cmdReleaseToScratch s force)
  | .listVolumes s st c o => some (cmdListVolumes s st c o)
  | .listRequests st n => some (cmdListRequests st n)
  | .openAccount n limit quota => some (cmdOpenAccount n limit quota)
  | .updateAccount n limit quota => some (cmdUpdateAccount n limit quota)
  | .closePeriod n stamp => some (cmdClosePeriod n stamp)
  | .setCell n a => some (cmdSetCell n a)
  | .setClock d s => some (cmdSetClock d s)
  | .setTimers f => some (cmdSetTimers f)
  | .defineLibrary f => some (cmdDefineLibrary f)
  | .formatCatalogue => some cmdFormatCatalogue
  | .defineDrive f => some (cmdDefineDrive f)
  | .postMessage f => some (cmdPostMessage f)
  | _ => none

end Sys2Proof.Machine
end

