-- ==== Sys2Proof/Machine/RequestLink.lean ====
section
/-! DEFINITION. The request link port (R191 to R197, R200), the link reset (R92, R145, R201), and the clock's
second (00_scope, "The library clock" and "Timers"). -/

namespace Sys2Proof.Machine

/-! ## Lines -/

/-- The port holds a connection (R192). -/
def Port.connected (p : Port) : Bool := p.conn ≠ .free

/-- The lines the port drives, from its phase (R191, R193). -/
def Port.cmdLine (p : Port) : Bool := p.conn = .command || p.conn = .status || p.conn = .ending
def Port.dirLine (p : Port) : Bool := p.conn = .dataIn || p.conn = .status || p.conn = .ending
def Port.endLine (p : Port) : Bool := p.conn = .ending

/-- A step of the port alone: nothing happens after a power-fail warning (R202). -/
def portStep (f : State → Port) (s : State) : State :=
  if s.set.warned then s else { s with port := f s, lib := s.lib.begin }

/-! ## Selection (R192) -/

/-- The selection is answered: the port is FREE, the byte names this unit alone, RESET is released. -/
def selects (s : State) (data : Byte) (reset : Bool) : Bool :=
  s.port.conn = .free && data = BitVec.ofNat 8 (2 ^ s.set.unit) && !reset

/-- A connection begins, waiting for SELECT to drop (R192, R200). -/
def Port.selected (p : Port) : Port := { p.ends with conn := .selecting, stall := some Config.ackStall }

/-- SELECTION (R192). -/
def execSelection (data : Byte) (reset : Bool) (s : State) : Host.Outcome State Fault Refusal :=
  .next (portStep (fun s => if selects s data reset then s.port.selected else s.port) s)

/-- The port asserts REQ and starts its stall timer (R193, R200). -/
def Port.ask (p : Port) : Port := { p with req := true, stall := some Config.ackStall }

/-- The port releases REQ and starts its stall timer (R193, R200). -/
def Port.letGo (p : Port) : Port := { p with req := false, stall := some Config.ackStall }

/-- SELECT_DROPPED: the COMMAND phase begins with the first byte asked for (R192, R193). -/
def execSelectDropped (s : State) : Host.Outcome State Fault Refusal :=
  .next (portStep (fun s =>
    if s.port.conn = .selecting then { s.port with conn := .command }.ask else s.port) s)

/-! ## The end of a command at the port -/

/-- Status bytes (R197). -/
def Result.status : Result → Byte
  | .good _ => 0x00
  | .check _ _ => 0x01
  | .busy => 0x04

/-- The data-in of an outcome. -/
def Result.data : Result → List Field
  | .good data => data
  | _ => []

/-- The phase that follows the application: DATA-IN when the command returns data, else STATUS (R193). -/
def Port.answer (p : Port) : Port :=
  match p.last with
  | some r =>
    let bytes := dataBytes r.data
    { p with conn := if bytes.isEmpty then .status else .dataIn, inData := bytes, status := r.status }
  | none => p

/-- The port ends a command by itself, and goes to STATUS (R194, R195). -/
def refuseByPort (r : Result) (s : State) : State :=
  { s with port := (s.port.ended r).answer, lib := s.lib.begin }

/-- The command spelled is applied (R196). A reserved byte that is not zero ends it with CHECK, INVALID-FIELD, also a
Request Sense or an Inquire, whose record of this CHECK replaces the one it would have returned: R196 and R198 before
R199 (DESIGN CHOICE, log 61). -/
def applyBlock (s : State) : State :=
  let code := (s.port.block.getD 0 0).toNat
  if !reservedZero code s.port.block then refuseByPort (.check .invalidField (blockSubject s.port.block)) s
  else
    match spelled s.port.block s.port.outData with
    | none => refuseByPort (.check .invalidCommand .none) s
    | some .requestSense =>
      let r : Result := .good (senseFields s.port.sense)
      { s with port := { s.port with sense := none, last := some r }.answer, lib := s.lib.begin }
    | some c =>
      match hostCommand c with
      | some f =>
        let s := hostStep f s
        { s with port := s.port.answer }
      | none => s

/-- A whole block has been taken (R194, R195). -/
def blockTaken (s : State) : State :=
  let code := (s.port.block.getD 0 0).toNat
  if !knownCode code then refuseByPort (.check .invalidCommand .none) s
  else if s.lib.start.state = .formatting && !takenInFormat code then refuseByPort .busy s
  else
    let n := if code < 0x40 then 0 else requiredLength code s.port.block
    if 0x40 ≤ code && parameterLength code s.port.block ≠ n then
      refuseByPort (.check .invalidField (blockSubject s.port.block)) s
    else if n = 0 then applyBlock s
    else { s with port := { s.port with conn := .dataOut, outLeft := n }, lib := s.lib.begin }

/-- A byte of the block is taken (R194). -/
def takeBlockByte (byte : Byte) (s : State) : State :=
  let s := { s with port := { s.port.letGo with block := s.port.block ++ [byte] } }
  let code := (s.port.block.getD 0 0).toNat
  match blockLength code with
  | none => refuseByPort (.check .invalidCommand .none) s
  | some n => if s.port.block.length < n then { s with lib := s.lib.begin } else blockTaken s

/-- A byte of the data-out is taken (R195, R196). -/
def takeOutByte (byte : Byte) (s : State) : State :=
  let s := { s with port :=
    { s.port.letGo with outData := s.port.outData ++ [byte], outLeft := s.port.outLeft - 1 } }
  if s.port.outLeft = 0 then applyBlock s else { s with lib := s.lib.begin }

/-- The offered byte counts as taken: the phase goes on, and the connection ends after the end byte (R192,
R193, R197). -/
def Port.offeredTaken (p : Port) : Port :=
  match p.conn with
  | .dataIn =>
    let rest := p.inData.drop 1
    { p.letGo with inData := rest, conn := if rest.isEmpty then .status else .dataIn }
  | .status => { p.letGo with conn := .ending }
  | .ending => p.ends
  | _ => p

/-- BYTE_HANDSHAKE (R193): ACK while REQ is asserted. `byte` is what the host has placed, when it places. -/
def handshake (byte : Byte) (s : State) : State :=
  if s.set.warned then s
  else if !s.port.req then { s with lib := s.lib.begin }
  else
    match s.port.conn with
    | .command => takeBlockByte byte s
    | .dataOut => takeOutByte byte s
    | _ => { s with port := s.port.offeredTaken, lib := s.lib.begin }

def execByteHandshake (byte : Byte) (s : State) : Host.Outcome State Fault Refusal := .next (handshake byte s)

/-- The byte the port offers in its phase; the end byte is formed as it is offered (R193, R197). -/
def offered (s : State) : Byte :=
  match s.port.conn with
  | .dataIn => s.port.inData.getD 0 0
  | .status => s.port.status
  | .ending => BitVec.ofNat 8 (endByte s.lib)
  | _ => s.port.line

/-- The port asks for or offers the next byte (R193). -/
def nextByte (s : State) : Port :=
  if s.port.connected && s.port.conn ≠ .selecting && !s.port.req then { s.port with line := offered s }.ask
  else s.port

/-- ACK_RELEASE (R193). -/
def execAckRelease (s : State) : Host.Outcome State Fault Refusal := .next (portStep nextByte s)

/-- ENDING_COMPLETE: the host has taken the end byte, and the connection ends (R192, R197, log 10). -/
def execEndingComplete (s : State) : Host.Outcome State Fault Refusal :=
  .next (portStep (fun s => if s.port.conn = .ending && s.port.req then s.port.ends else s.port) s)

/-- ACK_STALL_EXPIRY (R200): the connection ends; a command not yet applied is discarded with it. As at any timer
expiry taken in FORMATTING, the clearing of the format is made first (R188). -/
def execAckStallExpiry (s : State) : Host.Outcome State Fault Refusal :=
  let ended := portStep (fun s => if isDue s.port.stall then s.port.ends else s.port) s
  .next (if isDue s.port.stall && s.lib.start.state = .formatting then event (fun _ l => l) ended else ended)

/-- INVALID_COMMAND (R194): the code names no command. A code that names one is no such event. -/
def execInvalidCommand (code : Nat) (s : State) : Host.Outcome State Fault Refusal :=
  .next (if knownCode code then portStep State.port s
    else hostStep (fun g l => .refuse g l .invalidCommand .none) s)

/-! ## Link reset (R92, R145, R201) -/

namespace Lib

/-- Empties the prompts that meet a test, with no slot offered and nothing presented yet (R145). -/
def clearPrompts (test : Prompt → Bool) (l : Lib) : Lib :=
  { l with prompts := { l.prompts with slots := l.prompts.slots.map (Option.filter fun p => !test p) } }

/-- The prompts that go with a request freed by a link reset (R92, R145). -/
def goesWith (t : Nat) (p : Prompt) : Bool :=
  p.subject.tag = some t && (p.isRequest || p.kind = PromptKind.queueStall)

/-- Frees a host request at a link reset (R92). The scratch list and STATION-REMOVE are brought up to date
afterwards (R24, R140). -/
def resetFree (g : Settings) (t : Nat) (l : Lib) : Lib :=
  let held := (l.req? t).bind Request.serial?
  let l := (((l.emptyPlaceSlot g t).dropStaged g t).leaveDrives t).clearMarks t
  let l := (l.dropWait t).clearPrompts (goesWith t)
  let l := match held with
    | some s => l.updVol s fun v => { v with holder := v.holder.filter (· ≠ t) }
    | none => l
  (l.freeEntry t).wake

/-- Gives a tag's places in the other records to its successor (R12, R92). -/
def retag (old new : Nat) (l : Lib) : Lib :=
  let swap (t : Option Nat) : Option Nat := if t = some old then some new else t
  let order (o : Order) : Order := { o with serves := swap o.serves }
  let slot (k : Slot) : Slot := match k with
    | .pick label t => .pick label (if t = old then new else t)
    | .place t => .place (if t = old then new else t)
    | k => k
  let cell (c : Cell) : Cell := match c with
    | .empty m => .empty (swap m)
    | c => c
  let acc (v : Accessor) : Accessor := { v with current := v.current.map order, staged := v.staged.map order }
  let vol (v : Volume) : Volume := { v with holder := swap v.holder }
  let drive (v : Drive) : Drive := { v with serving := swap v.serving }
  let l := { l with
    cat := { l.cat with vols := l.cat.vols.map vol }
    place := { l.place with cells := l.place.cells.map cell, slots := l.place.slots.map slot }
    drives := l.drives.map drive
    rail := { l.rail with accA := acc l.rail.accA, accB := acc l.rail.accB } }
  (l.updReq old fun r => { r with tag := new }).retagPrompts old new

/-- Converts a host request to internal work (R92). -/
def convert (g : Settings) (r : Request) (l : Lib) : Lib :=
  let t := l.newTag
  let l := ((l.retag r.tag t).rotate t).updReq t fun q =>
    { q with origin := .internal, code := some (q.code.getD .cancelled) }
  let pending (l : Lib) : Lib := l.updReq t fun q => { q with cancelPending := true }
  match r.state with
  | .fetching => pending l
  | .threading => pending l
  | .mounted =>
    let l := l.reqRewinding g t
    match r.drive with
    | some d => l.orderUnload g d
    | none => l
  | .moving => if r.kind = .audit then pending l else l
  | _ => l

/-- A link reset frees this request; it converts any other (R92). -/
def freedByReset (l : Lib) (r : Request) : Bool :=
  match r.state with
  | .done | .held | .queued | .manual => true
  | .fetching | .moving => (l.stagedFor? r.tag).isSome
  | _ => false

/-- One host request at a link reset, with the reel that its end hands over (R38, R92). -/
def resetRequest (g : Settings) (x : List (Nat × Serial) × Lib) (t : Nat) : List (Nat × Serial) × Lib :=
  match x.2.req? t with
  | some r =>
    if x.2.freedByReset r then (x.1 ++ (x.2.handOverOf t).toList, x.2.resetFree g t)
    else (x.1, x.2.convert g r)
  | none => x

/-- The tags of host requests in ascending arrival sequence (R92). -/
def hostTags (l : Lib) : List Nat :=
  (sortBy (fun x y => x.arrival < y.arrival) (l.reqs.live.filter fun r => r.origin = .link)).map Request.tag

/-- Slots offered to the waiting list after all of a reset's withdrawals, with nothing presented yet
(R140, R145). -/
def offerQuietly (g : Settings) : Nat → Lib → Lib
  | 0, l => l
  | fuel + 1, l =>
    match l.freePromptSlot, sortBy l.waitBefore l.prompts.waits with
    | some k, w :: _ =>
      offerQuietly g fuel
        ((l.dropWait w.tag).fillSlot g k (requestDraft g w.kind w.subject w.detail))
    | _, _ => l

/-- The first of the postings made since `was`, when it is more urgent than the presented one (R130). -/
def moreUrgent? (was : List Nat) (shown : Prompt) (l : Lib) : Option (Nat × Prompt) :=
  match l.presentationOrder.find? fun x => !was.contains x.2.posting with
  | some x => if x.2.kind.urgency < shown.kind.urgency then some x else none
  | none => none

/-- The presented posting after a link reset (R130, R145): `was` are the postings that stood before its
slots were offered, `tags` the new tags of converted requests. -/
def presentAfterReset (was tags : List Nat) (l : Lib) : Lib :=
  match l.prompts.presented with
  | none => if l.presentationOrder.isEmpty then l else l.presentFirst
  | some n =>
    match l.posted? n with
    | none => l.presentFirst
    | some shown =>
      match l.moreUrgent? was shown.2 with
      | some x => l.display x false
      | none => if shown.2.subject.tag.any tags.contains then l.refresh n false else l

/-- STATION-REMOVE after a link reset that has freed a slot (R40): the slots of the prompt table have been offered
to the waiting list before it (R140, log 51). -/
def removeAfterReset (g : Settings) (l was : Lib) : Lib :=
  if l.emptySlots = was.emptySlots then l else l.updateRemove g

/-- What a link reset does to the records (R24, R92, R145, R174, R201). -/
def linkReset (g : Settings) (found : Lib) : Lib :=
  let l := found.clearAttention
  let before := l.reqs.live.map Request.tag
  let x := l.hostTags.foldl (fun x t => resetRequest g x t) ([], l)
  let l := x.2.syncAllScratch g
  let l := l.clearPrompts fun p => p.kind = .hostMessage || (p.kind = .scratchLow && !l.cat.low)
  let was := l.numbered.map fun y => y.2.posting
  let l := l.offerQuietly g Config.promptSlots
  let l := l.presentAfterReset was ((l.reqs.live.map Request.tag).filter fun t => !before.contains t)
  x.1.foldl (fun l y => l.handOver g y.1 y.2) (l.removeAfterReset g found)

end Lib

/-- LINK_RESET (R201): the connection ends, the sense record is cleared and the mask set all clear, and the
records follow; the clock, the link table and the library state are kept. -/
def execLinkReset (s : State) : Host.Outcome State Fault Refusal :=
  .next (if s.set.warned then s
    else
      let g := { s.set with mask := 0 }
      { s with set := g, port := { s.port.ends with sense := none },
               lib := (s.lib.begin.linkReset g).settle g })

/-! ## The clock's second -/

def Drive.tick (v : Drive) : Drive :=
  { v with threadLeft := countDown v.threadLeft, unloadLeft := countDown v.unloadLeft,
           queryLeft := countDown v.queryLeft }

def Accessor.tick (v : Accessor) : Accessor := { v with timer := countDown v.timer }

def Prompt.tick (p : Prompt) : Prompt :=
  { p with deadlineLeft := countDown p.deadlineLeft, reannounceLeft := countDown p.reannounceLeft }

def StartLimit.tick : StartLimit → StartLimit
  | .running n => .running (n - 1)
  | x => x

/-- Every running timer of the records one second on (log 8). -/
def Lib.tick (l : Lib) : Lib :=
  { l with
    drives := l.drives.map Drive.tick
    reqs := { l.reqs with live := l.reqs.live.map fun r => { r with stallLeft := countDown r.stallLeft } }
    rail := { l.rail with accA := l.rail.accA.tick, accB := l.rail.accB.tick }
    prompts := { l.prompts with slots := l.prompts.slots.map (Option.map Prompt.tick) }
    acct := { l.acct with periodLeft := l.acct.periodLeft - 1 }
    start := { l.start with limit := l.start.limit.tick } }

/-- CLOCK_SECOND (00_scope): the clock is one second on, and so is every running timer (log 8). -/
def execClockSecond (s : State) : Host.Outcome State Fault Refusal :=
  .next (if s.set.warned then s
    else { s with set := { s.set with clock := s.set.clock.tick }
                  port := { s.port with stall := countDown s.port.stall }
                  lib := s.lib.begin.tick })

end Sys2Proof.Machine
end

