-- ==== Sys2Proof/Machine/Dispatch.lean ====
section
/-! DEFINITION. One arm for each command: a direct call of its meaning. -/

namespace Sys2Proof.Machine

/-- The effect of a command on everything but the queue. -/
def exec (i : Instr) (s : State) : Host.Outcome State Fault Refusal :=
  match i with
  | .powerOn unit memoryKept doorOpen serviceOpen slots => Sys2Proof.Machine.execPowerOn unit memoryKept doorOpen serviceOpen slots s
  | .powerFailWarning => Sys2Proof.Machine.execPowerFailWarning s
  | .selection data reset => Sys2Proof.Machine.execSelection data reset s
  | .selectDropped => Sys2Proof.Machine.execSelectDropped s
  | .endingComplete => Sys2Proof.Machine.execEndingComplete s
  | .ackStallExpiry => Sys2Proof.Machine.execAckStallExpiry s
  | .linkReset => Sys2Proof.Machine.execLinkReset s
  | .invalidCommand code => Sys2Proof.Machine.execInvalidCommand code s
  | .testReady => Sys2Proof.Machine.execTestReady s
  | .requestSense => Sys2Proof.Machine.execRequestSense s
  | .readAttention => Sys2Proof.Machine.execReadAttention s
  | .setAttentionMask mask => Sys2Proof.Machine.execSetAttentionMask mask s
  | .inquire => Sys2Proof.Machine.execInquire s
  | .cancel tag => Sys2Proof.Machine.execCancel tag s
  | .releaseRequest tag => Sys2Proof.Machine.execReleaseRequest tag s
  | .dismount tag => Sys2Proof.Machine.execDismount tag s
  | .queryRequest tag => Sys2Proof.Machine.execQueryRequest tag s
  | .resumeLibrary => Sys2Proof.Machine.execResumeLibrary s
  | .scanStation => Sys2Proof.Machine.execScanStation s
  | .confirmDrive drive => Sys2Proof.Machine.execConfirmDrive drive s
  | .varyDrive drive action => Sys2Proof.Machine.execVaryDrive drive action s
  | .varyPath path action => Sys2Proof.Machine.execVaryPath path action s
  | .queryDrive drive => Sys2Proof.Machine.execQueryDrive drive s
  | .withdrawMessage slot posting => Sys2Proof.Machine.execWithdrawMessage slot posting s
  | .queryPrompt slot => Sys2Proof.Machine.execQueryPrompt slot s
  | .suspendAccount account => Sys2Proof.Machine.execSuspendAccount account s
  | .resumeAccount account => Sys2Proof.Machine.execResumeAccount account s
  | .closeAccount account => Sys2Proof.Machine.execCloseAccount account s
  | .readAccount account => Sys2Proof.Machine.execReadAccount account s
  | .setLink source action => Sys2Proof.Machine.execSetLink source action s
  | .readLinks => Sys2Proof.Machine.execReadLinks s
  | .restoreAccessor accessor => Sys2Proof.Machine.execRestoreAccessor accessor s
  | .mount f => Sys2Proof.Machine.execMount f s
  | .mountScratch f => Sys2Proof.Machine.execMountScratch f s
  | .eject tag serial priority => Sys2Proof.Machine.execEject tag serial priority s
  | .cleanDrive tag drive priority => Sys2Proof.Machine.execCleanDrive tag drive priority s
  | .audit tag first last priority => Sys2Proof.Machine.execAudit tag first last priority s
  | .enterVolume f => Sys2Proof.Machine.execEnterVolume f s
  | .queryVolume serial => Sys2Proof.Machine.execQueryVolume serial s
  | .updateVolume serial f => Sys2Proof.Machine.execUpdateVolume serial f s
  | .retireVolume serial => Sys2Proof.Machine.execRetireVolume serial s
  | .releaseToScratch serial force => Sys2Proof.Machine.execReleaseToScratch serial force s
  | .listVolumes after state classCode owner => Sys2Proof.Machine.execListVolumes after state classCode owner s
  | .listRequests state after => Sys2Proof.Machine.execListRequests state after s
  | .openAccount account limit quota => Sys2Proof.Machine.execOpenAccount account limit quota s
  | .updateAccount account limit quota => Sys2Proof.Machine.execUpdateAccount account limit quota s
  | .closePeriod account stamp => Sys2Proof.Machine.execClosePeriod account stamp s
  | .setCell cell action => Sys2Proof.Machine.execSetCell cell action s
  | .setClock day second => Sys2Proof.Machine.execSetClock day second s
  | .setTimers f => Sys2Proof.Machine.execSetTimers f s
  | .defineLibrary f => Sys2Proof.Machine.execDefineLibrary f s
  | .formatCatalogue => Sys2Proof.Machine.execFormatCatalogue s
  | .defineDrive f => Sys2Proof.Machine.execDefineDrive f s
  | .postMessage f => Sys2Proof.Machine.execPostMessage f s
  | .formatClearing => Sys2Proof.Machine.execFormatClearing s
  | .auditPhase => Sys2Proof.Machine.execAuditPhase s
  | .enterReady => Sys2Proof.Machine.execEnterReady s
  | .startLimitExpiry => Sys2Proof.Machine.execStartLimitExpiry s
  | .reconcileQueryExpiry drive => Sys2Proof.Machine.execReconcileQueryExpiry drive s
  | .threadingLimitExpiry drive => Sys2Proof.Machine.execThreadingLimitExpiry drive s
  | .unloadLimitExpiry drive => Sys2Proof.Machine.execUnloadLimitExpiry drive s
  | .stepLimitExpiry x => Sys2Proof.Machine.execStepLimitExpiry x s
  | .queueStallExpiry tag => Sys2Proof.Machine.execQueueStallExpiry tag s
  | .manualDeadlineExpiry posting => Sys2Proof.Machine.execManualDeadlineExpiry posting s
  | .hostMessageDeadlineExpiry posting => Sys2Proof.Machine.execHostMessageDeadlineExpiry posting s
  | .reAnnounceExpiry posting => Sys2Proof.Machine.execReAnnounceExpiry posting s
  | .periodTimerExpiry => Sys2Proof.Machine.execPeriodTimerExpiry s
  | .keyNext posting => Sys2Proof.Machine.execKeyNext posting s
  | .keyAccept posting => Sys2Proof.Machine.execKeyAccept posting s
  | .keyRefuse posting => Sys2Proof.Machine.execKeyRefuse posting s
  | .keyDone posting => Sys2Proof.Machine.execKeyDone posting s
  | .hello => Sys2Proof.Machine.execHello s
  | .panelMessageDiscarded => Sys2Proof.Machine.execPanelMessageDiscarded s
  | .picked x number place label => Sys2Proof.Machine.execPicked x number place label s
  | .pickEmpty x number place => Sys2Proof.Machine.execPickEmpty x number place s
  | .placed x number place => Sys2Proof.Machine.execPlaced x number place s
  | .placeBlocked x number place => Sys2Proof.Machine.execPlaceBlocked x number place s
  | .cellSeen x number cell column seen => Sys2Proof.Machine.execCellSeen x number cell column seen s
  | .scanDone x number column => Sys2Proof.Machine.execScanDone x number column s
  | .moveDone x number column => Sys2Proof.Machine.execMoveDone x number column s
  | .gripper x number column held => Sys2Proof.Machine.execGripper x number column held s
  | .accessorFaultReport x number column code => Sys2Proof.Machine.execAccessorFaultReport x number column code s
  | .loadedReady drive label => Sys2Proof.Machine.execLoadedReady drive label s
  | .loadFailed drive => Sys2Proof.Machine.execLoadFailed drive s
  | .unloaded drive errors => Sys2Proof.Machine.execUnloaded drive errors s
  | .unloadPressed drive => Sys2Proof.Machine.execUnloadPressed drive s
  | .reelRemoved drive => Sys2Proof.Machine.execReelRemoved drive s
  | .cleanNeeded drive => Sys2Proof.Machine.execCleanNeeded drive s
  | .driveFaultReport drive code => Sys2Proof.Machine.execDriveFaultReport drive code s
  | .online drive => Sys2Proof.Machine.execOnline drive s
  | .offline drive => Sys2Proof.Machine.execOffline drive s
  | .holding drive reply => Sys2Proof.Machine.execHolding drive reply s
  | .doorOpened => Sys2Proof.Machine.execDoorOpened s
  | .doorClosed => Sys2Proof.Machine.execDoorClosed s
  | .slot slot seen => Sys2Proof.Machine.execSlot slot seen s
  | .serviceDoorOpened => Sys2Proof.Machine.execServiceDoorOpened s
  | .serviceDoorClosed => Sys2Proof.Machine.execServiceDoorClosed s
  | .floorMessageDiscarded => Sys2Proof.Machine.execFloorMessageDiscarded s
  | .byteHandshake byte => Sys2Proof.Machine.execByteHandshake byte s
  | .ackRelease => Sys2Proof.Machine.execAckRelease s
  | .clockSecond => Sys2Proof.Machine.execClockSecond s

end Sys2Proof.Machine
end

