-- ==== Sys2Proof/Safety.lean ====
section
/-! DEFINITION. What stays true of the part whatever is commanded: the settings stay in the ranges the spec
gives them, the request link port stays in a legal phase, no note outlives its step, and the tables keep the
sizes of "Principal figures". -/

namespace Sys2Proof.Machine

/-! ## Settings -/

/-- A reading of the clock: day 0 to 65,535, second 0 to 86,399 (00_scope, "The library clock"). -/
def Clock.legal (c : Clock) : Prop := c.day < 65536 ∧ c.second < 86400

/-- Every source has one entry, its action suits it, and an exclusive action stands in one entry at most
(R164, R165). -/
def linksLegal (links : List Action) : Prop :=
  links.length = 12
    ∧ (∀ n, 1 ≤ n → n ≤ 12 → (entryOf links n).suits n = true)
    ∧ ∀ m n, 1 ≤ m → m ≤ 12 → 1 ≤ n → n ≤ 12 → entryOf links m = entryOf links n →
        (entryOf links m).exclusive = true → m = n

/-- The ranges of R189. -/
def Timers.legal (t : Timers) : Prop :=
  (30 ≤ t.step ∧ t.step ≤ 600) ∧ (30 ≤ t.threading ∧ t.threading ≤ 600)
    ∧ (60 ≤ t.unload ∧ t.unload ≤ 900) ∧ (60 ≤ t.manual ∧ t.manual ≤ 7200)
    ∧ (10 ≤ t.reannounce ∧ t.reannounce ≤ 600) ∧ (60 ≤ t.stall ∧ t.stall ≤ 7200)
    ∧ (3600 ≤ t.period ∧ t.period ≤ 604800) ∧ t.threshold ≤ 4096

/-- The settings are in their ranges: bits 5 to 7 of the mask are zero (R172), there are eight paths (R49),
and the unit address is 0 to 7 (R191). -/
def Settings.legal (g : Settings) : Prop :=
  g.clock.legal ∧ linksLegal g.links ∧ g.mask.toNat < 32 ∧ g.timers.legal ∧ g.paths.length = 8 ∧ g.unit < 8

/-! ## The request link port -/

/-- The port is in a legal phase (R192 to R197, R200): with no connection, or while it waits for SELECT to
drop, nothing is asked for and nothing is held of a command; the stall timer runs only on a connection, with
at most ten seconds; a phase lasts only while it has a byte to move. -/
def Port.legal (p : Port) : Prop :=
  (p.conn = .free ∨ p.conn = .selecting →
      p.req = false ∧ p.block = [] ∧ p.outData = [] ∧ p.outLeft = 0 ∧ p.inData = [])
    ∧ (p.conn = .free → p.stall = none)
    ∧ (∀ n, p.stall = some n → n ≤ Config.ackStall)
    ∧ (p.conn = .command → p.block.length < 16)
    ∧ (p.conn = .dataOut → 0 < p.outLeft)
    ∧ (p.conn = .dataIn → p.inData ≠ [])

/-- What every step keeps of the settings, the port and the notes. -/
def Inv (s : State) : Prop := s.set.legal ∧ s.port.legal ∧ s.lib.notes = Notes.none

/-! ## The records -/

/-- The sizes of the tables, and the reserved bits of the attention flags and the linked-source set. -/
structure Shape where
  drives : Nat
  slots : Nat
  prompts : Nat
  causes : Byte
  linked : BitVec 16
  deriving DecidableEq, Repr

/-- The shape of the records: 16 drives, 8 slots, 16 prompt slots ("Principal figures"), five causes (R171)
and twelve sources (R173). -/
def Lib.shape (l : Lib) : Shape :=
  { drives := l.drives.length, slots := l.place.slots.length, prompts := l.prompts.slots.length
    causes := l.att.causes &&& 0xE0, linked := l.att.linked &&& 0xF000 }

/-- The shape the spec gives the records. -/
def specShape : Shape := { drives := 16, slots := 8, prompts := 16, causes := 0, linked := 0 }

/-- The header of the record memory, the library state (R177) and where start-up stands. -/
structure Base where
  store : Store
  state : LibState
  phase : Phase
  limit : StartLimit
  clearing : Bool
  deriving DecidableEq, Repr

/-- The records that nothing changes while a step is settled: the definitions, the library state and where
start-up stands, the interlock, the doors and the drives' definitions. -/
structure Fixed where
  store : Store
  state : LibState
  phase : Phase
  limit : StartLimit
  clearing : Bool
  interlock : Bool
  serviceOpen : Bool
  haltedSpan : Option Span
  doorOpen : Bool
  defns : List (Option DriveDef)
  periodLeft : Nat
  deriving DecidableEq, Repr

def Lib.fixed (l : Lib) : Fixed :=
  { store := l.store, state := l.start.state, phase := l.start.phase, limit := l.start.limit
    clearing := l.start.clearing, interlock := l.rail.interlock, serviceOpen := l.rail.serviceOpen
    haltedSpan := l.rail.haltedSpan, doorOpen := l.place.doorOpen, defns := l.drives.map Drive.defn
    periodLeft := l.acct.periodLeft }

/-- The part of what is fixed that the header and the library state are. -/
def Fixed.base (x : Fixed) : Base :=
  { store := x.store, state := x.state, phase := x.phase, limit := x.limit, clearing := x.clearing }

def Lib.base (l : Lib) : Base := l.fixed.base

/-! ## Words of the statements -/

/-- No power-fail warning has been taken since power-on (R176). -/
def State.live (s : State) : Prop := s.set.warned = false

/-- The library is STARTING or READY (R177). -/
def State.serving (s : State) : Prop := s.lib.start.state = .ready ∨ s.lib.start.state = .starting

/-- The records as a floor report, a key or a timer finds them: no message of the step before is left, and
the clearing of a format in hand has been made (R188). -/
def State.found (s : State) : Lib := s.lib.opened s.set

/-- The state an event leaves that changes the records it finds to `l`: the rest of the step follows. -/
def State.settled (s : State) (l : Lib) : State := { s with lib := l.settle s.set }

/-- The state a host command leaves with settings `g`, records `l` and outcome `r` (R196, R198). -/
def State.after (s : State) (g : Settings) (l : Lib) (r : Result) : State :=
  { s with set := g, lib := l, port := s.port.ended r }

/-- A request-creating command is admitted: it ends GOOD; the records `l` that the rest of the step starts from
have one more request, of the tag, which holds the reel; the other requests and records, the drives, the
places, the rail and the accounts stand (R67). -/
def State.admits (s : State) (c : Instr) (tag : Nat) (reel : Option Serial) (P : Request → Prop) : Prop :=
  ∃ (l : Lib) (r : Request), exec c s = .next (s.after s.set (l.settle s.set) (.good []))
    ∧ l.req? tag = some r ∧ r.tag = tag ∧ r.origin = .link ∧ r.arrived = s.set.clock
    ∧ r.arrival = satAdd max32 s.lib.reqs.arrivals 1 ∧ r.code = none ∧ r.cancelPending = false ∧ r.drive = none
    ∧ P r
    ∧ l.reqs.live.length = s.lib.reqs.live.length + 1 ∧ (∀ t, t ≠ tag → l.req? t = s.lib.req? t)
    ∧ (∀ x, reel = some x → (l.vol? x).bind Volume.holder = some tag)
    ∧ (∀ x, reel ≠ some x → l.vol? x = s.lib.vol? x)
    ∧ l.drives = s.lib.drives ∧ l.place = s.lib.place ∧ l.rail = s.lib.rail ∧ l.acct = s.lib.acct
    ∧ l.start = s.lib.start

/-! ## The settling of one slot (R37) -/

/-- The reel of slot `k` has been taken in: an internal IMPORT in QUEUED claims the slot, and the volume stands in
STATION with cell `c` reserved as its home (R37, R84). -/
def Lib.Imports (n : Lib) (k : Nat) (serial : Serial) (c : Nat) : Prop :=
  ∃ r ∈ n.reqs.live, r.kind = .imp ∧ r.origin = .internal ∧ r.state = .queued ∧ r.priority = 2 ∧ r.cargo = .volume serial
    ∧ r.source = some (.slot k) ∧ n.slot k = .pick (some serial) r.tag ∧ n.cell c = .awaited serial
    ∧ ∃ w, n.vol? serial = some w ∧ w.state = .station k ∧ w.homeCell = some c ∧ w.holder = some r.tag

/-- The records `n` follow from `m` by the settling of slot `k` in a station scan, as the table of R37 gives it: a
slot that is not INBOUND stands, with everything else, and the other slots stand. -/
def Lib.SlotSettled (m n : Lib) (k : Nat) : Prop :=
  (∀ j, j ≠ k → n.slot j = m.slot j)
  ∧ ((∀ x, m.slot k ≠ .inbound x) → n = m)
  ∧ (m.slot k = .inbound none → n.slot k = .rejected none .unreadable)
  ∧ ∀ serial, m.slot k = .inbound (some serial) →
    let rejected (why : Reject) : Prop := n.slot k = .rejected (some serial) why
    let takenIn : Prop :=
      (m.freeCell? = none → rejected .libraryFull)
      ∧ ∀ c, m.freeCell? = some c →
        (m.entryFree = true → n.Imports k serial c) ∧ (m.entryFree = false → n = m)
    (∀ v, m.vol? serial = some v →
      (v.state ≠ .shelf → rejected .notShelf)
      ∧ (v.state = .shelf → v.holder = none → takenIn)
      ∧ ∀ t, v.state = .shelf → v.holder = some t →
        let waits : Prop := ∃ r, m.req? t = some r ∧ r.kind = .mount ∧ r.state = .manual ∧ r.route = some .station
        (¬waits → rejected .volumeInUse)
        ∧ (waits → n.slot k = .pick (some serial) t
            ∧ (∃ q, n.req? t = some q ∧ q.state = .queued ∧ q.source = some (.slot k))
            ∧ ∃ w, n.vol? serial = some w ∧ w.state = .station k ∧ w.holder = some t))
    ∧ (m.vol? serial = none →
      (m.store.lib.autoEnter = false → rejected .unknownLabel)
      ∧ (m.store.lib.autoEnter = true → 4096 ≤ m.cat.vols.length → rejected .catalogueFull)
      ∧ (m.store.lib.autoEnter = true → m.cat.vols.length < 4096 →
          takenIn
          ∧ ∀ c, m.freeCell? = some c → m.entryFree = true →
            ∃ w, n.vol? serial = some w ∧ w.cls = .scratch ∧ w.density = m.store.lib.autoDensity ∧ w.ring = true))

end Sys2Proof.Machine
end

