-- ==== Sys2Proof/WellFormed.lean ====
section
/-! DEFINITION. The well-formed commands: every operand fits the field that carries it (10_the_request_link
R194, R195, R203; 11_the_panel_and_floor_links R206, R209 to R211). A command that is not well formed still
has its meaning: a host command is refused, a message is discarded. -/

namespace Sys2Proof

/-- The number fits in a field of one byte, of two, of four. -/
def fits1 (n : Nat) : Bool := n < 256
def fits2 (n : Nat) : Bool := n < 65536
def fits4 (n : Nat) : Bool := n < 4294967296

/-- The number fits in the three bytes of a second of the day. -/
def fits3 (n : Nat) : Bool := n < 16777216

namespace Instr

/-- Codes of the table of R194. -/
def hostCodes : List Nat :=
  [0x00, 0x03, 0x07, 0x08, 0x0A, 0x10, 0x11, 0x12, 0x14, 0x18, 0x19, 0x1C, 0x1D, 0x1E, 0x20, 0x24, 0x25, 0x28,
   0x29, 0x2A, 0x2C, 0x30, 0x31, 0x34] ++
  [0x40, 0x41, 0x42, 0x43, 0x44, 0x48, 0x49, 0x4A, 0x4B, 0x4C, 0x4D, 0x4E, 0x50, 0x51, 0x52, 0x54, 0x58, 0x59] ++
  [0x80, 0x81, 0x82, 0x84]

def wfChange (fits : Nat → Bool) (c : Change) : Bool := c.flag ≤ 1 && fits c.value

def wfUpdate (f : UpdateBlock) : Bool :=
  wfChange fits2 f.owner && wfChange fits2 f.expiry && wfChange fits1 f.ring && wfChange fits1 f.uses
    && wfChange fits1 f.density

def wfTimers (f : TimersBlock) : Bool :=
  wfChange fits2 f.step && wfChange fits2 f.threading && wfChange fits2 f.unload && wfChange fits2 f.manual
    && wfChange fits2 f.reannounce && wfChange fits2 f.stall && wfChange fits3 f.period
    && wfChange fits2 f.threshold

def wfLibrary (f : LibraryBlock) : Bool :=
  fits1 f.columns && fits1 f.perColumn && fits1 f.stationColumn && fits1 f.autoEnter && fits1 f.autoDensity
    && fits1 f.startMode && fits1 f.disabled.length && f.disabled.all fits2

def wfDrive (f : DriveBlock) : Bool :=
  [f.drive, f.kind, f.column, f.density1, f.density2, f.density3, f.pathCount, f.path1, f.path2, f.path3,
   f.path4, f.resetCleaning].all fits1 && fits2 f.threshold

/-- A column as an accessor reports it (R209). -/
def wfColumn (n : Nat) : Bool := n < 48

/-- The order number of a report (R208). -/
def wfOrder (n : Nat) : Bool := 1 ≤ n && n ≤ 255

/-- A place as a report names it (R208). -/
def wfPlace : Place → Bool
  | .cell n => n < 3072
  | .slot n => n < 8
  | .drive n => n < 16
  | .gripper _ => true

/-- Every operand fits its field. -/
def wf : Instr → Bool
  | powerOn unit _ _ _ slots => unit < 8 && slots.length = 8
  | invalidCommand code => fits1 code && !hostCodes.contains code
  | setAttentionMask mask => fits1 mask
  | cancel tag | releaseRequest tag | dismount tag | queryRequest tag => fits2 tag
  | confirmDrive d | queryDrive d | queryPrompt d | restoreAccessor d => fits1 d
  | varyDrive a b | varyPath a b | setLink a b => fits1 a && fits1 b
  | withdrawMessage k posting => fits1 k && fits2 posting
  | suspendAccount n | resumeAccount n | closeAccount n | readAccount n => fits2 n
  | mount f =>
    fits2 f.tag && fits1 f.path && fits2 f.account && fits1 f.priority && fits1 f.access
      && fits1 f.manualAllowed
  | mountScratch f =>
    fits2 f.tag && fits1 f.density && fits1 f.path && fits2 f.account && fits1 f.priority
      && fits2 f.expiryDays
  | eject tag _ priority => fits2 tag && fits1 priority
  | cleanDrive tag d priority => fits2 tag && fits1 d && fits1 priority
  | audit tag first last priority => fits2 tag && fits1 first && fits1 last && fits1 priority
  | enterVolume f =>
    fits1 f.classCode && fits2 f.owner && fits1 f.density && fits1 f.ring && fits2 f.expiry && fits1 f.uses
  | updateVolume _ f => wfUpdate f
  | releaseToScratch _ force => fits1 force
  | listVolumes _ state classCode owner => fits1 state && fits1 classCode && fits2 owner
  | listRequests state after_ => fits1 state && fits4 after_
  | openAccount n limit quota | updateAccount n limit quota => fits2 n && fits1 limit && fits2 quota
  | closePeriod n stamp => fits2 n && fits2 stamp
  | setCell n action => fits2 n && fits1 action
  | setClock day second => fits2 day && fits3 second
  | setTimers f => wfTimers f
  | defineLibrary f => wfLibrary f
  | defineDrive f => wfDrive f
  | postMessage f => fits1 f.length && f.text.length = 40 && fits1 f.mode && fits2 f.deadline
  | reconcileQueryExpiry d | threadingLimitExpiry d | unloadLimitExpiry d => d < 16
  | queueStallExpiry tag => fits2 tag
  | manualDeadlineExpiry n | hostMessageDeadlineExpiry n | reAnnounceExpiry n => fits2 n
  | keyNext n | keyAccept n | keyRefuse n | keyDone n => fits2 n
  | picked _ n p _ | pickEmpty _ n p | placed _ n p | placeBlocked _ n p => wfOrder n && wfPlace p
  | cellSeen _ n cell column _ => wfOrder n && wfPlace (.cell cell) && wfColumn column
  | scanDone _ n column | moveDone _ n column | gripper _ n column _ => wfOrder n && wfColumn column
  | accessorFaultReport _ n column code => fits1 n && wfColumn column && 1 ≤ code && fits1 code
  | loadedReady d _ | loadFailed d | unloadPressed d | reelRemoved d | cleanNeeded d | online d | offline d
  | holding d _ => d < 16
  | unloaded d errors => d < 16 && fits1 errors
  | driveFaultReport d code => d < 16 && 1 ≤ code && fits1 code
  | slot k _ => k < 8
  | _ => true

end Instr
end Sys2Proof
end

