-- ==== Sys2Proof/Certificates/Slice0/Obligations.lean ====
section
/-! DEFINITION. The statements for the provers. `s.found` are the records as an event finds them, `s.settled l`
is the state of an event that changes them to `l`, and `s.after g l r` that of a host command that ends `r`
(Safety). Where the rest of a step follows (the dispatcher, the offers, the linked actions), it is written
`l.settle g`, and a statement says what the records `l` are that it starts from. -/

open Sys2Proof Sys2Proof.Machine

/-! ## The queue, reset, and what every step keeps -/

/-- A step runs the command at the front of the queue on the rest of it; with no command waiting it idles (the
idling is the model's choice, log 4). -/
def Obligations.StepTakesFrontCommand : Prop :=
  (∀ (c : Instr) (rest : List Instr) (s : State),
    s.pending = c :: rest → step s = exec c { s with pending := rest })
  ∧ ∀ s : State, s.pending = [] → step s = .next s

/-- No command stops the block: every step answers a next state. -/
def Obligations.EveryStepAnswers : Prop :=
  ∀ s : State, ∃ t, step s = .next t

/-- Reset: the volatile records at the values the rules give them at power-on (the record memory is one never
formatted and the unit address 0: logs 2 and 3). -/
def Obligations.ResetVolatileValues : Prop :=
  let s := State.reset
  s.set.clock = ⟨0, 0⟩ ∧ s.set.clockSet = false ∧ s.set.mask = 0 ∧ s.set.paths = List.replicate 8 true
  ∧ s.set.links.map Action.code = [1, 3, 2, 4, 5, 5, 5, 4, 5, 5, 5, 5]
  ∧ s.set.timers = ⟨120, 90, 300, 900, 60, 900, 86400, 20⟩
  ∧ s.port.conn = .free ∧ s.port.sense = none
  ∧ s.lib.start.state = .starting ∧ s.lib.start.limit = .running 600
  ∧ s.lib.place.slots = List.replicate 8 .empty ∧ s.lib.place.doorOpen = true ∧ s.lib.place.locked = false
  ∧ (∀ d, d < 16 → (s.lib.drive d).state = .offline ∧ (s.lib.drive d).reel = .none)
  ∧ s.lib.reqs.live = [] ∧ s.lib.reqs.arrivals = 0 ∧ s.lib.reqs.queueSeq = 0 ∧ s.lib.reqs.nextTag = 32768
  ∧ s.lib.rail.accA.state = .idle ∧ s.lib.rail.accA.pos = 0 ∧ s.lib.rail.accB.state = .idle
  ∧ s.lib.rail.accB.pos = 47 ∧ s.lib.rail.interlock = false ∧ s.lib.rail.serviceOpen = false
  ∧ s.lib.prompts.slots = List.replicate 16 none ∧ s.lib.prompts.counter = 0
  ∧ s.lib.att.causes = 0 ∧ s.lib.att.linked = 0 ∧ s.lib.acct.periodLeft = 86400 ∧ s.pending = []

/-- The invariant and the shape of the records hold at reset. -/
def Obligations.InvariantAtReset : Prop :=
  Inv State.reset ∧ State.reset.lib.shape = specShape

/-- Every step keeps the settings in their ranges (the link table with R165's rules among them), the port in a
legal phase, and no note left. -/
def Obligations.InvariantKept : Prop :=
  ∀ s t : State, Inv s → step s = .next t → Inv t

/-- Every step keeps 16 drives, 8 slots, 16 prompt slots and the reserved attention bits clear. -/
def Obligations.RecordShapeKept : Prop :=
  ∀ s t : State, s.lib.shape = specShape → step s = .next t → t.lib.shape = specShape

/-- After a power-fail warning nothing but a power-on changes anything. POWER_FAIL_WARNING: the connection ends,
and the records stand as they are. -/
def Obligations.PowerFailWarningStopsAll : Prop :=
 (∀ (c : Instr) (s : State), s.set.warned = true → (∀ u m d v r, c ≠ .powerOn u m d v r) → exec c s = .next s) ∧
 (∀ s : State, s.live →
    exec .powerFailWarning s
      = .next { s with set := { s.set with warned := true }, port := s.port.ends, lib := s.lib.begin })

/-- The library state changes at POWER_ON, ENTER_READY and Format Catalogue alone (a handshake may apply a
Format Catalogue). -/
def Obligations.LibraryStateChangesOnlyAt : Prop :=
  ∀ (c : Instr) (s t : State), exec c s = .next t →
    (∀ u m d v r, c ≠ .powerOn u m d v r) → c ≠ .enterReady → c ≠ .formatCatalogue → (∀ b, c ≠ .byteHandshake b) →
    t.lib.start.state = s.lib.start.state

/-- In FORMATTING every host command but Test Ready, Inquire, Request Sense and Resume Library ends BUSY, and
changes nothing but the outcome (R177, R195). INVALID_COMMAND: a code outside the table of commands ends CHECK,
INVALID-COMMAND, with no subject (R194). -/
def Obligations.CommandsTurnedAway : Prop :=
 (∀ (c : Instr) (f : Settings → Lib → Applied) (s : State),
    s.live → s.lib.start.state = .formatting → hostCommand c = some f →
    c ≠ .testReady → c ≠ .inquire → c ≠ .resumeLibrary →
    exec c s = .next (s.after s.set s.lib.begin .busy)) ∧
 (∀ (code : Nat) (s : State), s.live → code ∉ Instr.hostCodes →
    exec (.invalidCommand code) s
      = .next { s with lib := s.lib.begin
                       port := { s.port with sense := some ⟨.invalidCommand, .none⟩
                                             last := some (.check .invalidCommand .none) } })

/-! ## Power and the request link port -/

/-- POWER_ON: the settings and the port take their power-on values, and the store check makes the library
STARTING over a good image and UNFORMATTED over a bad one (R175): its format mark missing, its check word
disagreeing, or a field of its header out of range. The check word and the ranges are one truth value, whose keeping
over the loss of power is an operand, and a loss while a format is clearing leaves a bad mark: the model's choices
(log 17). That POWER_ON carries the answers to START is the model's choice too (log 6). -/
def Obligations.PowerOnMakesStoreCheck : Prop :=
  ∀ (unit : Nat) (kept doorOpen serviceOpen : Bool) (slots : List Reading) (s : State),
    ∃ l : Lib, exec (.powerOn unit kept doorOpen serviceOpen slots) s
        = .next { s with set := Settings.powerOn (unit % 8), port := Port.powerOn, lib := l }
      ∧ l.store = s.lib.store.afterLoss s.lib.start.clearing kept
      ∧ (l.store.mark = true ∧ l.store.checked = true →
          l.start.state = .starting ∧ l.start.phase = .reconcile ∧ l.start.limit = .running 600)
      ∧ (¬(l.store.mark = true ∧ l.store.checked = true) →
          l.start.state = .unformatted ∧ l.start.limit = .stopped)

/-- SELECTION: a FREE port answers a selection of its own unit address alone with RESET released, and begins to
wait for SELECT to drop; any other selection changes no register. SELECT_DROPPED: the COMMAND phase begins, its
first byte is asked for, and the stall timer starts. -/
def Obligations.SelectionBeginsConnection : Prop :=
 (∀ (data : Byte) (reset : Bool) (s : State), s.live →
    (s.port.conn = .free → data = BitVec.ofNat 8 (2 ^ s.set.unit) → reset = false →
      exec (.selection data reset) s
        = .next { s with port := { s.port.ends with conn := .selecting, stall := some 10 }, lib := s.lib.begin })
    ∧ (s.port.conn ≠ .free ∨ data ≠ BitVec.ofNat 8 (2 ^ s.set.unit) ∨ reset = true →
      exec (.selection data reset) s = .next { s with lib := s.lib.begin })) ∧
 (∀ s : State, s.live → s.port.conn = .selecting →
    exec .selectDropped s
      = .next { s with port := { s.port with conn := .command, req := true, stall := some 10 }
                       lib := s.lib.begin })

/-- ACK_RELEASE: in each phase the next byte is asked for or offered; the end byte is the library state with 80h
added while the interlock flag is set. -/
def Obligations.AckReleaseOffersNextByte : Prop :=
  ∀ s : State, s.live → s.port.req = false → s.port.conn ≠ .free → s.port.conn ≠ .selecting →
    ∃ b : Byte, exec .ackRelease s
        = .next { s with port := { s.port with req := true, stall := some 10, line := b }, lib := s.lib.begin }
      ∧ (s.port.conn = .dataIn → ∀ x xs, s.port.inData = x :: xs → b = x)
      ∧ (s.port.conn = .status → b = s.port.status)
      ∧ (s.port.conn = .ending →
          b = BitVec.ofNat 8 (s.lib.start.state.code + (if s.lib.rail.interlock then 0x80 else 0)))

/-- BYTE_HANDSHAKE in the COMMAND phase: the byte joins the block, until the block has the length of its group.
BYTE_HANDSHAKE toward the host: the offered byte counts as taken, and the phases follow one another: DATA-IN to
its last byte, STATUS, ENDING, and the end of the connection. -/
def Obligations.HandshakeMovesOneByte : Prop :=
 (∀ (byte : Byte) (n : Nat) (s : State), s.live → s.port.req = true → s.port.conn = .command →
    blockLength (((s.port.block ++ [byte]).getD 0 0).toNat) = some n → s.port.block.length + 1 < n →
    exec (.byteHandshake byte) s
      = .next { s with port := { s.port with block := s.port.block ++ [byte], req := false, stall := some 10 }
                       lib := s.lib.begin }) ∧
 (∀ (byte : Byte) (s : State), s.live → s.port.req = true →
    (∀ x xs, s.port.conn = .dataIn → s.port.inData = x :: xs →
      exec (.byteHandshake byte) s
        = .next { s with lib := s.lib.begin
                         port := { s.port with conn := if xs = [] then .status else .dataIn, inData := xs
                                               req := false, stall := some 10 } })
    ∧ (s.port.conn = .status →
      exec (.byteHandshake byte) s
        = .next { s with lib := s.lib.begin
                         port := { s.port with conn := .ending, req := false, stall := some 10 } })
    ∧ (s.port.conn = .ending →
      exec (.byteHandshake byte) s = .next { s with lib := s.lib.begin, port := s.port.ends }))

/-- BYTE_HANDSHAKE of the last byte of a block without data-out, and of the last data-out byte of one with it: the
command that the block and the data-out spell is applied as its own row says, and the port goes on to DATA-IN, or to
STATUS when no data is returned. Before it, the last byte of a block whose command has data-out begins the DATA-OUT
phase for the required number of bytes, and each byte but the last joins the data-out. The port itself ends a command,
and no other record changes: a code without group or outside the table with INVALID-COMMAND, a command that FORMATTING
does not take with BUSY and the sense record as it was, another parameter length than the required one, and a reserved
byte that is not zero, with INVALID-FIELD (the subject of these two is log 14's, the fields of a layout that the spec
does not give and the place of the disabled-cell count log 11's; that a reserved byte ends a Request Sense or an
Inquire so too, beside R199, is the model's choice, log 61). -/
def Obligations.HandshakeAppliesCommand : Prop :=
 (∀ (byte : Byte) (s : State), s.live → s.port.req = true →
    let applies (c : Instr) (p : Port) : Prop := ∀ t : State,
      exec c { s with port := { p with req := false, stall := some 10 } } = .next t →
      ∃ r : Result, t.port.last = some r
        ∧ exec (.byteHandshake byte) s = .next { t with port := { t.port with
            conn := if (dataBytes r.data).isEmpty then .status else .dataIn
            inData := dataBytes r.data, status := r.status } }
    let goesOn (p : Port) : Prop := exec (.byteHandshake byte) s
      = .next { s with lib := s.lib.begin, port := { p with req := false, stall := some 10 } }
    let refuses (p : Port) (why : Sense) (about : Subject) : Prop := goesOn { p with
      conn := .status, inData := [], status := 0x01, sense := some ⟨why, about⟩, last := some (.check why about) }
    (s.port.conn = .command →
      let block := s.port.block ++ [byte]
      let p : Port := { s.port with block := block }
      let code := (block.getD 0 0).toNat
      let taken : Prop := blockLength code = some block.length ∧ knownCode code = true
        ∧ (s.lib.start.state = .formatting → code ∈ [0x00, 0x03, 0x0A, 0x18])
      let noOut : Prop := 0x40 ≤ code → requiredLength code block = 0 ∧ parameterLength code block = 0
      (∀ c, taken → noOut → reservedZero code block = true → spelled block s.port.outData = some c → applies c p)
      ∧ (taken → 0x40 ≤ code → 0 < requiredLength code block →
          parameterLength code block = requiredLength code block →
          goesOn { p with conn := .dataOut, outLeft := requiredLength code block })
      ∧ (0xC0 ≤ code → refuses p .invalidCommand .none)
      ∧ (blockLength code = some block.length → knownCode code = false → refuses p .invalidCommand .none)
      ∧ (blockLength code = some block.length → knownCode code = true → s.lib.start.state = .formatting →
          code ∉ [0x00, 0x03, 0x0A, 0x18] →
          goesOn { p with conn := .status, inData := [], status := 0x04, last := some .busy })
      ∧ (taken → 0x40 ≤ code → parameterLength code block ≠ requiredLength code block →
          refuses p .invalidField (blockSubject block))
      ∧ (taken → noOut → reservedZero code block = false → refuses p .invalidField (blockSubject block)))
    ∧ (s.port.conn = .dataOut →
      let out := s.port.outData ++ [byte]
      let p : Port := { s.port with outData := out, outLeft := s.port.outLeft - 1 }
      let code := (s.port.block.getD 0 0).toNat
      (1 < s.port.outLeft → goesOn p)
      ∧ (∀ c, s.port.outLeft = 1 → reservedZero code s.port.block = true → spelled s.port.block out = some c →
          applies c p)
      ∧ (s.port.outLeft = 1 → reservedZero code s.port.block = false →
          refuses p .invalidField (blockSubject s.port.block)))) ∧
 (∀ block : List Byte,
    requiredLength 0x40 block = 6 ∧ requiredLength 0x48 block = 7 ∧ requiredLength 0x59 block = 17
    ∧ requiredLength 0x81 block = 0 ∧ requiredLength 0x84 block = 40
    ∧ requiredLength 0x80 block = 2 * (block.getD 7 0).toNat
    ∧ (∀ code, 0x40 ≤ code → code < 0x80 → block.length = 10 →
        parameterLength code block = (block.getD 9 0).toNat)
    ∧ (∀ code, 0x80 ≤ code → code < 0xC0 → block.length = 16 →
        parameterLength code block = 256 * (block.getD 14 0).toNat + (block.getD 15 0).toNat))

/-- ENDING_COMPLETE and ACK_STALL_EXPIRY end the connection: every line is released, the timer stops, and the
sense record stands; the expiry changes no other record, but that in FORMATTING it finds the clearing made, as any
timer expiry does (R188). LINK_RESET: the connection ends, the sense record and the mask are cleared; the clock, the
link table, the timer values, the paths, the library state and the definitions of the library are kept; the attention
flags and the linked-source set are cleared (R174), every host message is withdrawn (R145; here with no request prompt
waiting for a slot), and no request of the host is left (R92): one that is DONE, HELD, QUEUED or MANUAL is freed and
its volume's hold released; a MOUNTED one goes on as internal work under a new tag with its drive unloaded, and one in
FETCHING with its order current goes on so, marked cancel-pending (here each with one request in the table). -/
def Obligations.ConnectionEnds : Prop :=
 (∀ s : State, s.live →
    (s.port.conn = .ending → s.port.req = true →
      exec .endingComplete s = .next { s with port := s.port.ends, lib := s.lib.begin })
    ∧ (s.port.stall = some 0 →
      exec .ackStallExpiry s = .next { s with
        port := s.port.ends, lib := if s.lib.start.state = .formatting then s.found else s.lib.begin })
    ∧ s.port.ends.conn = .free ∧ s.port.ends.req = false ∧ s.port.ends.stall = none
    ∧ s.port.ends.sense = s.port.sense) ∧
 (∀ s : State, s.live →
    let g : Settings := { s.set with mask := 0 }
    ∃ l : Lib, exec .linkReset s
        = .next { s with set := g, port := { s.port.ends with sense := none }, lib := l.settle g }
      ∧ l.start = s.lib.start ∧ l.store = s.lib.store ∧ l.att = { causes := 0, linked := 0 }
      ∧ (s.lib.prompts.waits = [] → ∀ k p, l.prompts.slots.getD k none = some p → p.kind ≠ .hostMessage)
      ∧ (∀ q ∈ l.reqs.live, q.origin = .internal)
      ∧ ∀ r, s.lib.reqs.live = [r] → r.origin = .link → s.lib.pickSlot? r.tag = none →
        (r.state = .done ∨ r.state = .held ∨ r.state = .queued ∨ r.state = .manual →
          l.reqs.live = []
          ∧ ∀ serial v, r.cargo = .volume serial → s.lib.vol? serial = some v → v.holder = some r.tag →
              (l.vol? serial).bind Volume.holder = none)
        ∧ (∀ d, r.state = .mounted → r.drive = some d → d < 16 → s.lib.shape = specShape →
          ∃ q, l.reqs.live = [q] ∧ q.origin = .internal ∧ q.state = .rewinding ∧ q.tag = s.lib.newTag
            ∧ q.code = some (r.code.getD .cancelled) ∧ (l.drive d).state = .rewinding ∧ Msg.unload d ∈ l.out
            ∧ ((s.lib.drive d).serving = some r.tag → (l.drive d).serving = some q.tag)
            ∧ ∀ serial v, r.cargo = .volume serial → s.lib.vol? serial = some v → v.holder = some r.tag →
                (l.vol? serial).bind Volume.holder = some q.tag)
        ∧ (r.state = .fetching → s.lib.stagedFor? r.tag = none →
          ∃ q, l.reqs.live = [q] ∧ q.origin = .internal ∧ q.state = .fetching ∧ q.cancelPending = true
            ∧ q.tag = s.lib.newTag ∧ q.code = some (r.code.getD .cancelled)
            ∧ ∀ x o, (s.lib.acc x).current = some o → o.serves = some r.tag →
                (l.acc x).current = some { o with serves := some q.tag }))

/-! ## Commands of every library state -/

/-- Test Ready: its outcome by the library state; it returns no data and changes no record. The end byte of a
reply carries the library state. -/
def Obligations.TestReadyOutcome : Prop :=
 (∀ s : State, s.live → s.port.conn = .ending → s.port.req = false →
    ∃ b : Byte, exec .ackRelease s
        = .next { s with port := { s.port with req := true, stall := some 10, line := b }, lib := s.lib.begin }
      ∧ b.toNat % 128 = s.lib.start.state.code) ∧
  ∀ s : State, s.live →
    exec .testReady s = .next (s.after s.set s.lib.begin (match s.lib.start.state with
      | .ready => .good []
      | .starting => .check .notReady .none
      | .formatting => .check .notReady .none
      | .unformatted => .check .notFormatted .none))

/-- Request Sense: the record is returned and cleared, eight bytes laid out as R198 gives: the code, the kind of
subject, and a serial in bytes 2 to 7 or a number in bytes 2 to 3; all zero when clear. Inquire: in every library
state it ends GOOD, changes no record, and returns the texts, the unit address, the state and interlock byte and the
capacities. The revision byte is a free value (log 12); the text bytes are ASCII's, presumed (log 1), and the widths
of the capacity fields the model's choice (log 11). -/
def Obligations.SenseAndInquire : Prop :=
 (∀ s : State, s.live →
    exec .requestSense s
      = .next { s with lib := s.lib.begin
                       port := { s.port with sense := none, last := some (.good (senseFields s.port.sense)) } }
    ∧ (s.port.sense = none → dataBytes (senseFields s.port.sense) = [0, 0, 0, 0, 0, 0, 0, 0])
    ∧ ∀ (why : Sense) (about : Subject), s.port.sense = some ⟨why, about⟩ →
        let code : Byte := BitVec.ofNat 8 why.code
        let number (kind : Byte) (n : Nat) : List Byte :=
          [code, kind, BitVec.ofNat 8 (n / 256), BitVec.ofNat 8 n, 0, 0, 0, 0]
        dataBytes (senseFields s.port.sense) = match about with
          | .none => [code, 0, 0, 0, 0, 0, 0, 0]
          | .serial x => [code, 1, x.c0, x.c1, x.c2, x.c3, x.c4, x.c5]
          | .tag n => number 2 n
          | .cell n => number 3 n
          | .account n => number 4 n
          | .drive n => number 5 n
          | .slot n => number 6 n
          | .source n => number 7 n
          | .accessor n => number 8 n
          | .prompt n => number 9 n) ∧
 (∀ x ∈ [(Sense.notReady, 0x01), (.notFormatted, 0x02), (.sequence, 0x03), (.invalidCommand, 0x04),
      (.invalidField, 0x05), (.clockUnset, 0x06), (.volumeUnknown, 0x10), (.volumeExists, 0x11),
      (.volumeInUse, 0x12), (.volumeState, 0x13), (.catalogueFull, 0x14), (.cellState, 0x15), (.ringAbsent, 0x16),
      (.notExpired, 0x17), (.noScratch, 0x18), (.tagInUse, 0x20), (.tagUnknown, 0x21), (.requestState, 0x22),
      (.noEligibleDrive, 0x23), (.driveState, 0x24), (.noCleaner, 0x25), (.accountUnknown, 0x30),
      (.accountSuspended, 0x31), (.quota, 0x32), (.accountExists, 0x33), (.accountTableFull, 0x34),
      (.stalePeriod, 0x35), (.accountBusy, 0x36), (.promptTableFull, 0x40), (.promptUnknown, 0x41),
      (.linkConflict, 0x50), (.linkInvalid, 0x51), (.doorOpen, 0x60), (.accessorState, 0x61)],
    x.1.code = x.2) ∧
 (∀ s : State, s.live →
    exec .inquire s = .next (s.after s.set s.lib.begin (.good (inquireFields s.set s.lib)))
    ∧ dataBytes ((inquireFields s.set s.lib).take 20)
        = [0x53, 0x4F, 0x52, 0x4D, 0x41, 0x46, 0x45, 0x4E, 0x45, 0x4D, 0x54, 0x52, 0x45, 0x4C, 0x20, 0x4C,
           0x43, 0x2D, 0x34, 0x30]
    ∧ ((inquireFields s.set s.lib).drop 21).map Field.value
        = [s.set.unit, s.lib.start.state.code + (if s.lib.rail.interlock then 0x80 else 0),
           if s.set.clockSet then 1 else 0, 4096,
           if s.lib.start.state = .unformatted then 0 else s.lib.place.cells.length, 16, 8, 48, 40, 16, 128])

/-- Read Attention: the flags, the mask and the linked sources are returned; the flags and the set are cleared,
the mask is not, and the line is released; in FORMATTING it ends BUSY. An event taken after it sets its flag, and
asserts the line when unmasked; a connection that the stall limit ends leaves the flags cleared. -/
def Obligations.ReadAttentionReturnsAndClears : Prop :=
  ∀ s : State, s.live →
    (s.lib.start.state ≠ .formatting →
      ∃ t : State, exec .readAttention s = .next t
        ∧ t = s.after s.set { s.lib.begin with att := { causes := 0, linked := 0 } }
            (.good [⟨1, s.lib.att.causes.toNat⟩, ⟨1, s.set.mask.toNat⟩, ⟨2, s.lib.att.linked.toNat⟩])
        ∧ t.attentionLine = false
        ∧ (∀ n, n < 8 → (t.lib.setCause n).att.causes.getLsbD n = true
            ∧ (t.set.mask.getLsbD n = false → { t with lib := t.lib.setCause n }.attentionLine = true))
        ∧ ∀ p : Port, p.stall = some 0 →
            ∃ u : State, exec .ackStallExpiry { t with port := p } = .next u
              ∧ u.lib.att = { causes := 0, linked := 0 } ∧ u.set.mask = s.set.mask)
    ∧ (s.lib.start.state = .formatting → exec .readAttention s = .next (s.after s.set s.lib.begin .busy))

/-- Set Attention Mask: bits 0 to 4 become the mask, and a cause is masked by its bit; bits 5 to 7 set give
INVALID-FIELD; in FORMATTING it ends BUSY. The attention line is asserted while a cause has its flag set and its
mask bit clear. A masked cause's flag is still set by its event, and still returned by Read Attention. -/
def Obligations.AttentionMaskAndLine : Prop :=
 (∀ (mask : Nat) (s : State), s.live →
    (s.lib.start.state ≠ .formatting → mask < 32 →
      exec (.setAttentionMask mask) s
        = .next (s.after { s.set with mask := BitVec.ofNat 8 mask } s.lib.begin (.good [])))
    ∧ (s.lib.start.state ≠ .formatting → 32 ≤ mask →
      exec (.setAttentionMask mask) s = .next (s.after s.set s.lib.begin (.check .invalidField .none)))
    ∧ (s.lib.start.state = .formatting →
      exec (.setAttentionMask mask) s = .next (s.after s.set s.lib.begin .busy))) ∧
 (∀ s : State, s.attentionLine = true ↔
    ∃ n, n < 8 ∧ s.lib.att.causes.getLsbD n = true ∧ s.set.mask.getLsbD n = false) ∧
 (∀ (n : Nat) (s : State), s.live → s.lib.start.state ≠ .formatting → n < 8 → s.set.mask.getLsbD n = true →
    let t : State := { s with lib := s.lib.setCause n }
    t.lib.att.causes.getLsbD n = true
    ∧ exec .readAttention t = .next (t.after t.set { t.lib.begin with att := { causes := 0, linked := 0 } }
        (.good [⟨1, t.lib.att.causes.toNat⟩, ⟨1, t.set.mask.toNat⟩, ⟨2, t.lib.att.linked.toNat⟩])))

/-- Set Link: the entry of the source takes a suiting action that no other entry holds exclusively, and the
table is returned; the refusals of the three checks; Read Links returns the table. Both are refused in
UNFORMATTED and get BUSY in FORMATTING. -/
def Obligations.SetLinkSetsEntry : Prop :=
 (∀ (source action : Nat) (s : State), s.live →
    (s.lib.start.state = .unformatted →
      exec (.setLink source action) s = .next (s.after s.set s.lib.begin (.check .notFormatted .none))
      ∧ exec .readLinks s = .next (s.after s.set s.lib.begin (.check .notFormatted .none)))
    ∧ (s.lib.start.state = .formatting →
      exec (.setLink source action) s = .next (s.after s.set s.lib.begin .busy)
      ∧ exec .readLinks s = .next (s.after s.set s.lib.begin .busy))
    ∧ (s.serving → source < 1 ∨ 12 < source ∨ 5 < action →
      exec (.setLink source action) s = .next (s.after s.set s.lib.begin (.check .invalidField .none)))
    ∧ (s.serving →
      exec .readLinks s = .next (s.after s.set s.lib.begin (.good (s.set.links.map fun x => ⟨1, x.code⟩))))) ∧
  ∀ (source action : Nat) (a : Action) (s : State), s.live → s.serving →
    1 ≤ source → source ≤ 12 → Action.ofCode? action = some a →
    (a.suits source = true →
      (∀ n, 1 ≤ n → n ≤ 12 → n ≠ source → a.exclusive = true → entryOf s.set.links n ≠ a) →
      exec (.setLink source action) s
        = .next (s.after { s.set with links := s.set.links.set (source - 1) a } s.lib.begin
            (.good ((s.set.links.set (source - 1) a).map fun x => ⟨1, x.code⟩))))
    ∧ (a.suits source = false →
      exec (.setLink source action) s
        = .next (s.after s.set s.lib.begin (.check .linkInvalid (.source source))))
    ∧ (∀ n, a.suits source = true → 1 ≤ n → n ≤ 12 → n ≠ source → a.exclusive = true →
      entryOf s.set.links n = a → (∀ m, 1 ≤ m → m < n → m ≠ source → entryOf s.set.links m ≠ a) →
      exec (.setLink source action) s
        = .next (s.after s.set s.lib.begin (.check .linkConflict (.source n))))

/-- Set Clock: the clock takes the reading and the flag is set; every MOUNTED request with an account is settled to
the old reading: its elapsed seconds are added to the account's drive-seconds, the account's stamp moves on by 1 for
each, and it accrues from the new reading on; every last read time is cleared; every running timer keeps its seconds,
and a deadline kept as a reading is moved with the clock. Where the deadline of the presented posting changes, PRESENT
is sent for it, its alert clear once it has been announced; else nothing is sent to the panel. That a deadline is a
field whose change is presented is read from R130 with R125 (log 58). Set Timers: each value named takes the value
carried, and the eight values are returned; a change of the period length starts the period timer again, and a change
of the threshold makes the scratch-low condition be evaluated. -/
def Obligations.SetClockAndTimers : Prop :=
 (∀ (day second : Nat) (s : State), s.live → s.lib.start.state ≠ .formatting →
    day ≤ 65535 → second ≤ 86399 →
    let new : Clock := ⟨day, second⟩
    let settled (a : Account) (seconds : Nat) : Account := { a with
      driveSeconds := if a.driveSeconds + seconds ≤ 4294967295 then a.driveSeconds + seconds else 4294967295
      overflow := if a.driveSeconds + seconds ≤ 4294967295 then a.overflow else true
      stamp := (a.stamp + 1) % 65536 }
    let seconds (n : Nat) : List Nat := (s.lib.reqs.live.filter fun r => r.state = .mounted).filterMap fun r =>
      if r.account = some n then r.accruedFrom.map fun c => c.elapsed s.set.clock else none
    let moved (p : Prompt) : Prompt := { p with deadline := p.deadline.map (Clock.moved s.set.clock new) }
    let slots := s.lib.prompts.slots.map (Option.map moved)
    ∃ l : Lib, exec (.setClock day second) s
        = .next (s.after { s.set with clock := new, clockSet := true } l (.good []))
      ∧ l = { s.lib.begin with
          acct := { s.lib.acct with accounts := l.acct.accounts }, reqs := { s.lib.reqs with live := l.reqs.live }
          prompts := l.prompts, out := l.out }
      ∧ ((∀ n k p, s.lib.prompts.presented = some n → s.lib.posted? n = some (k, p) → moved p = p) →
          l.prompts = { s.lib.prompts with slots := slots } ∧ l.out = [])
      ∧ (∀ n k p, s.lib.prompts.presented = some n → s.lib.posted? n = some (k, p) → moved p ≠ p →
          let q := { moved p with announced := true }
          let shown : Present := { prompt := q, alert := !p.announced && p.mode ≠ .silent }
          l.prompts = { s.lib.prompts with slots := slots.set k (some q), lastSent := some shown }
            ∧ l.out = [.present shown])
      ∧ (∀ n a, s.lib.account? n = some a →
          l.account? n = some { (seconds n).foldl settled a with lastRead := none })
      ∧ (∀ a ∈ l.acct.accounts, a.lastRead = none)
      ∧ (∀ r ∈ s.lib.reqs.live, r.state = .mounted → r.account ≠ none → r.accruedFrom ≠ none →
          { r with accruedFrom := some new } ∈ l.reqs.live)
      ∧ (∀ tag, (∀ r ∈ s.lib.reqs.live, r.tag = tag → r.state ≠ .mounted) → l.req? tag = s.lib.req? tag)
      ∧ l.reqs.live.map (fun r => { r with accruedFrom := none })
          = s.lib.reqs.live.map (fun r => { r with accruedFrom := none })) ∧
 (∀ (f : TimersBlock) (s : State), s.live → s.serving → timersOk f = true →
    ∃ (t : Timers) (l : Lib),
      (t.step = if f.step.flag = 1 then f.step.value else s.set.timers.step)
      ∧ (t.threading = if f.threading.flag = 1 then f.threading.value else s.set.timers.threading)
      ∧ (t.unload = if f.unload.flag = 1 then f.unload.value else s.set.timers.unload)
      ∧ (t.manual = if f.manual.flag = 1 then f.manual.value else s.set.timers.manual)
      ∧ (t.reannounce = if f.reannounce.flag = 1 then f.reannounce.value else s.set.timers.reannounce)
      ∧ (t.stall = if f.stall.flag = 1 then f.stall.value else s.set.timers.stall)
      ∧ (t.period = if f.period.flag = 1 then f.period.value else s.set.timers.period)
      ∧ (t.threshold = if f.threshold.flag = 1 then f.threshold.value else s.set.timers.threshold)
      ∧ exec (.setTimers f) s
          = .next (s.after { s.set with timers := t } (l.settle { s.set with timers := t })
              (.good [⟨2, t.step⟩, ⟨2, t.threading⟩, ⟨2, t.unload⟩, ⟨2, t.manual⟩, ⟨2, t.reannounce⟩,
                ⟨2, t.stall⟩, ⟨3, t.period⟩, ⟨2, t.threshold⟩]))
      ∧ l = { s.lib.begin with
          acct := { s.lib.acct with periodLeft := l.acct.periodLeft }, cat := { s.lib.cat with low := l.cat.low }
          prompts := l.prompts, out := l.out, notes := l.notes }
      ∧ l.acct.periodLeft
          = (if t.period = s.set.timers.period then s.lib.acct.periodLeft else t.period)
      ∧ l.cat.low = (if t.threshold = s.set.timers.threshold then s.lib.cat.low
          else decide (s.lib.cat.scratch.length < t.threshold))
      ∧ (t.threshold = s.set.timers.threshold → l.prompts = s.lib.prompts ∧ l.out = [] ∧ l.notes = .none))

/-- The commands that only read: each ends GOOD with its record and changes nothing else. The records returned are
laid out as the model chose (log 11), but for that of Query Request, which R204 gives: 48 bytes, each number most
significant byte first, with a presence bit for each optional field and zeros where it is absent. -/
def Obligations.QueriesChangeNothing : Prop :=
  ∀ s : State, s.live → s.serving →
    let answers (c : Instr) (data : List Field) : Prop :=
      exec c s = .next (s.after s.set s.lib.begin (.good data))
    let bit (i : Nat) (present : Bool) : Nat := if present then 2 ^ i else 0
    let clock (c : Clock) : Nat := c.day * 2 ^ 24 + c.second
    let place (p : Place) : Nat × Nat := match p with
      | .cell n => (1, n)
      | .slot n => (2, n)
      | .drive n => (3, n)
      | .gripper .a => (4, 0)
      | .gripper .b => (4, 1)
    (∀ serial v, serial.valid = true → s.lib.vol? serial = some v → answers (.queryVolume serial) (volumeFields v))
    ∧ (∀ tag r, 1 ≤ tag → tag ≤ 65535 → s.lib.req? tag = some r →
        let posting : Option Nat := (s.lib.requestPrompt? tag).map fun x => x.2.posting
        let label : Option Serial := match r.cargo with
          | .volume x => some x
          | .unknown x => x
          | .none => none
        let data : List Field :=
          [⟨2, r.tag⟩, ⟨1, match r.origin with
              | .link => 1
              | .internal => 2⟩, ⟨1, r.kind.code⟩, ⟨1, r.state.code⟩,
           ⟨2, bit 0 label.isSome + bit 1 r.drive.isSome + bit 2 r.path.isSome + bit 3 r.density.isSome
              + bit 4 r.account.isSome + bit 5 r.access.isSome + bit 6 r.manualAllowed.isSome + bit 7 r.route.isSome
              + bit 8 r.expiryDays.isSome + bit 9 r.mountedAt.isSome + bit 10 r.source.isSome
              + bit 11 r.cursor.isSome + bit 12 posting.isSome + bit 13 r.code.isSome⟩,
           ⟨6, (label.map Serial.key).getD 0⟩, ⟨1, r.drive.getD 0⟩, ⟨1, r.path.getD 0⟩, ⟨1, r.density.getD 0⟩,
           ⟨2, r.account.getD 0⟩, ⟨1, r.priority⟩,
           ⟨1, match r.access with
              | none => 0
              | some .read => 1
              | some .write => 2⟩,
           ⟨1, if r.manualAllowed = some true then 1 else 0⟩,
           ⟨1, match r.route with
              | none => 0
              | some .library => 1
              | some .manualDrive => 2
              | some .station => 3⟩,
           ⟨2, r.expiryDays.getD 0⟩, ⟨4, r.arrival⟩, ⟨5, clock r.arrived⟩, ⟨5, (r.mountedAt.map clock).getD 0⟩,
           ⟨1, ((r.source.map place).map Prod.fst).getD 0⟩, ⟨2, ((r.source.map place).map Prod.snd).getD 0⟩,
           ⟨1, (r.cursor.map Cursor.next).getD 0⟩, ⟨1, (r.cursor.map Cursor.last).getD 0⟩, ⟨2, posting.getD 0⟩,
           ⟨1, if r.cancelPending then 1 else 0⟩, ⟨1, (r.code.map Code.code).getD 0⟩, ⟨1, 0⟩]
        answers (.queryRequest tag) data ∧ (dataBytes data).length = 48)
    ∧ (∀ d, d < 16 → answers (.queryDrive d) (driveFields s.set (s.lib.drive d)))
    ∧ (∀ k, k < 16 → answered (s.lib.prompts.slots.getD k none) = false →
        answers (.queryPrompt k) (promptFields (s.lib.prompts.slots.getD k none)))
    ∧ (∀ start state cls owner, start.valid = true ∨ start = Serial.blank → state ≤ 6 → cls ≤ 3 → owner ≤ 9999 →
        answers (.listVolumes start state cls owner)
          (catalogueFields s.lib (s.lib.cat.vols.filter (listMatches start state cls owner))))
    ∧ (∀ state start, state ≤ 12 → start ≤ 4294967295 →
        answers (.listRequests state start) (listFields (s.lib.listed state start)))
    ∧ answers .readLinks (s.set.links.map fun a => ⟨1, a.code⟩)

/-! ## The catalogue -/

/-- Enter Volume: the record stands on the shelf, with no home cell and no holder; every other record and
everything else is as it was. Retire Volume: the record is gone; the other records stand, and so does everything
outside the catalogue and the prompts. -/
def Obligations.EnterAndRetireVolume : Prop :=
 (∀ (f : EnterBlock) (cls : VolClass) (s : State), s.live → s.serving →
    enterClass? f = some cls → enterFieldsOk f = true → s.lib.vol? f.serial = none →
    s.lib.cat.vols.length < 4096 →
    (∀ n, cls.owner? = some n → ∃ a, s.lib.account? n = some a ∧ a.suspended = false) →
    ∃ l : Lib, exec (.enterVolume f) s = .next (s.after s.set l (.good []))
      ∧ l = { s.lib.begin with cat := { s.lib.cat with vols := l.cat.vols } }
      ∧ l.vol? f.serial = some
          { serial := f.serial, cls := cls, state := .shelf, homeCell := none, density := f.density
            ring := f.ring = 1, mounts := 0, errors := 0, lastMount := none, holder := none }
      ∧ ∀ x, x ≠ f.serial → l.vol? x = s.lib.vol? x) ∧
 (∀ (serial : Serial) (v : Volume) (s : State), s.live → s.serving →
    serial.valid = true → s.lib.vol? serial = some v → v.holder = none → v.state = .shelf ∨ v.state = .missing →
    ∃ l : Lib, exec (.retireVolume serial) s = .next (s.after s.set l (.good []))
      ∧ l = { s.lib.begin with cat := l.cat, prompts := l.prompts, out := l.out }
      ∧ l.cat.scratch = s.lib.cat.scratch ∧ l.cat.low = s.lib.cat.low
      ∧ l.vol? serial = none ∧ ∀ x, x ≠ serial → l.vol? x = s.lib.vol? x)

/-- Update Volume: the values named are changed, and nothing else of the record; the other records, the scratch list
and the scratch-low condition stand, and so does everything outside the catalogue and the prompts; the prompts too,
unless a cleaner's uses left is set above 0 (R128). That the change set names its values by flags is the model's
choice (log 13). -/
def Obligations.UpdateVolumeChangesNamed : Prop :=
  ∀ (serial : Serial) (f : UpdateBlock) (v : Volume) (s : State), s.live → s.serving →
    serial.valid = true → updateFieldsOk f = true → s.lib.vol? serial = some v → updateFits f v = true →
    (f.density.named = true ∨ f.uses.named = true → v.holder = none) →
    (f.owner.named = true → ∃ a, s.lib.account? f.owner.value = some a ∧ a.suspended = false) →
    ∃ l : Lib, exec (.updateVolume serial f) s = .next (s.after s.set l (.good []))
      ∧ l = { s.lib.begin with cat := { s.lib.cat with vols := l.cat.vols }, prompts := l.prompts, out := l.out }
      ∧ l.cat.scratch = s.lib.cat.scratch ∧ l.cat.low = s.lib.cat.low
      ∧ (f.uses.flag = 0 ∨ f.uses.value = 0 → l.prompts = s.lib.prompts ∧ l.out = [])
      ∧ l.vol? serial = some { v with
          cls := match v.cls with
            | .priv owner expiry =>
              .priv (if f.owner.flag = 1 then f.owner.value else owner)
                (if f.expiry.flag = 1 then f.expiry.value else expiry)
            | .scratch => .scratch
            | .cleaner uses => .cleaner (if f.uses.flag = 1 then f.uses.value else uses)
          ring := if f.ring.flag = 1 then f.ring.value = 1 else v.ring
          density := if f.density.flag = 1 then f.density.value else v.density }
      ∧ ∀ x, x ≠ serial → l.vol? x = s.lib.vol? x

/-- Release To Scratch: the record becomes SCRATCH, losing owner and expiry day, and joins the scratch list when
it is HOME; the other records stand. -/
def Obligations.ReleaseToScratchFrees : Prop :=
  ∀ (serial : Serial) (force : Nat) (v : Volume) (owner expiry : Nat) (s : State), s.live → s.serving →
    serial.valid = true → s.lib.vol? serial = some v → v.cls = .priv owner expiry → v.holder = none →
    force = 1 ∨ (force = 0 ∧ s.set.clockSet = true ∧ expiry ≤ s.set.clock.day) →
    ∃ l : Lib, exec (.releaseToScratch serial force) s = .next (s.after s.set (l.settle s.set) (.good []))
      ∧ l = { s.lib.begin with cat := l.cat, prompts := l.prompts, out := l.out, notes := l.notes }
      ∧ l.vol? serial = some { v with cls := .scratch }
      ∧ (serial ∈ l.cat.scratch ↔ v.state = .home)
      ∧ ∀ x, x ≠ serial → l.vol? x = s.lib.vol? x

/-! ## Cells and the station -/

/-- Set Cell: disabling an EMPTY or FOREIGN cell, enabling a DISABLED one, and reading; only that cell changes.
It is refused in UNFORMATTED, gets BUSY in FORMATTING, and refuses a cell or an action outside its range. The record
returned is laid out as the model chose (log 11). -/
def Obligations.SetCellChangesOneCell : Prop :=
 (∀ (n action : Nat) (s : State), s.live →
    (s.lib.start.state = .unformatted →
      exec (.setCell n action) s = .next (s.after s.set s.lib.begin (.check .notFormatted .none)))
    ∧ (s.lib.start.state = .formatting → exec (.setCell n action) s = .next (s.after s.set s.lib.begin .busy))
    ∧ (s.serving → s.lib.place.cells.length ≤ n ∨ 2 < action →
      exec (.setCell n action) s = .next (s.after s.set s.lib.begin (.check .invalidField .none)))) ∧
  ∀ (n : Nat) (s : State), s.live → s.serving → n < s.lib.place.cells.length →
    let put (c : Cell) : Lib :=
      { s.lib.begin with place := { s.lib.place with cells := s.lib.place.cells.set n c } }
    exec (.setCell n 0) s = .next (s.after s.set s.lib.begin (.good (cellFields s.lib n)))
    ∧ (s.lib.cell n = .foreign ∨ s.lib.cell n = .empty none →
      exec (.setCell n 1) s = .next (s.after s.set (put .disabled) (.good (cellFields (put .disabled) n))))
    ∧ (s.lib.cell n ≠ .foreign → s.lib.cell n ≠ .empty none →
      exec (.setCell n 1) s = .next (s.after s.set s.lib.begin (.check .cellState (.cell n))))
    ∧ (s.lib.cell n = .disabled →
      let l := ((put (.empty none)).notePlaceFreed).settle s.set
      exec (.setCell n 2) s = .next (s.after s.set l (.good (cellFields l n))))
    ∧ (s.lib.cell n ≠ .disabled →
      exec (.setCell n 2) s = .next (s.after s.set s.lib.begin (.check .cellState (.cell n))))

/-- Scan Station: in READY with the door CLOSED the slots are settled one after another in ascending order, each
INBOUND slot by the table of R37: a label of a SHELF volume that its request waits for is claimed by that request,
one with no holder, or a new one with auto-enter, by an IMPORT, and any other is REJECTED with the reason that fits;
slots that are not INBOUND stand. The station is returned as the whole step leaves it, laid out as the model chose
(log 11). The command is refused with the door OPEN, and in STARTING. -/
def Obligations.ScanStationSettlesSlots : Prop :=
  ∀ s : State, s.live → s.lib.shape = specShape →
    (s.lib.start.state = .ready → s.lib.place.doorOpen = true →
      exec .scanStation s = .next (s.after s.set s.lib.begin (.check .doorOpen .none)))
    ∧ (s.lib.start.state = .starting →
      exec .scanStation s = .next (s.after s.set s.lib.begin (.check .notReady .none)))
    ∧ (s.lib.start.state = .ready → s.lib.place.doorOpen = false →
      ∃ f : Nat → Lib, f 0 = s.lib.begin ∧ (∀ k, k < 8 → (f k).SlotSettled (f (k + 1)) k)
        ∧ exec .scanStation s
          = .next (s.after s.set ((f 8).settle s.set) (.good (stationFields ((f 8).settle s.set)))))

/-- DOOR_OPENED and DOOR_CLOSED: the door takes the state reported, and closing raises STATION-DOOR-CLOSED; the
definitions, the library state and the interlock stand; a report of the state it has changes nothing. With the source
linked to SCAN-STATION the closing makes a scan in READY (R167; here with the interlock flag set, so that no order is
staged, and no label read in an INBOUND slot): an unreadable reel's slot becomes REJECTED. -/
def Obligations.StationDoorReports : Prop :=
  ∀ s : State, s.live →
    (s.found.place.doorOpen = false →
      ∃ t, exec .doorOpened s = .next t ∧ t.lib.fixed = { s.found.fixed with doorOpen := true }
        ∧ t.set = s.set ∧ t.port = s.port)
    ∧ (s.found.place.doorOpen = true →
      ∃ l : Lib, exec .doorClosed s = .next (s.settled l)
        ∧ l.fixed = { s.found.fixed with doorOpen := false }
        ∧ l.notes.raised = s.found.notes.raised
            ++ [{ source := .stationDoorClosed, drive := none, columns := none, tag := none }])
    ∧ (s.found.place.doorOpen = true → exec .doorOpened s = .next { s with lib := s.found })
    ∧ (s.found.place.doorOpen = false → exec .doorClosed s = .next { s with lib := s.found })
    ∧ (s.lib.shape = specShape → s.found.place.doorOpen = true → s.found.rail.interlock = true →
      s.found.start.state = .ready → entryOf s.set.links 1 = .scanStation →
      (∀ k label, s.found.slot k ≠ .inbound (some label)) →
      ∃ t, exec .doorClosed s = .next t
        ∧ ∀ k, k < 8 → s.found.slot k = .inbound none → t.lib.slot k = .rejected none .unreadable)

/-- SLOT: a reel found in an EMPTY slot makes it INBOUND with its label; an INBOUND or REJECTED slot seen empty
becomes EMPTY; the other slots stand; an EMPTY slot seen empty changes nothing. -/
def Obligations.SlotReportRecords : Prop :=
  ∀ (k : Nat) (s : State), s.live → s.lib.shape = specShape → k < 8 →
    (∀ raw, s.found.slot k = .empty →
      ∃ l : Lib, exec (.slot k (.filled raw)) s = .next (s.settled l)
        ∧ l.slot k = .inbound (normLabel raw) ∧ (∀ j, j ≠ k → l.slot j = s.found.slot j)
        ∧ l.cat = s.found.cat ∧ l.drives = s.found.drives ∧ l.reqs.live = s.found.reqs.live)
    ∧ ((∃ x, s.found.slot k = .inbound x) ∨ (∃ x y, s.found.slot k = .rejected x y) →
      ∃ l : Lib, exec (.slot k .empty) s = .next (s.settled l)
        ∧ l.slot k = .empty ∧ (∀ j, j ≠ k → l.slot j = s.found.slot j)
        ∧ l.cat = s.found.cat ∧ l.drives = s.found.drives ∧ l.reqs.live = s.found.reqs.live)
    ∧ (s.found.slot k = .empty → exec (.slot k .empty) s = .next { s with lib := s.found })

/-- SERVICE_DOOR_OPENED: the interlock flag is set, and each accessor that is not FAULTED is given HALT and
stands HALTED; a reconcile query outstanding stands, and its step timer starts again (R182; here with no order
staged). That it starts again for an accessor HALTED before too, at the halt that R123 makes by R119, is the model's
reading (log 55), since R182 tells of an accessor that becomes HALTED. SERVICE_DOOR_CLOSED: the door is CLOSED, the interlock stays, and SERVICE-DOOR-CLOSED is raised
with the halted span. With the source linked to AUDIT-SPAN an internal AUDIT over the halted span is QUEUED (R169),
unless one stands over it already or no entry is free. -/
def Obligations.ServiceDoorInterlock : Prop :=
  ∀ s : State, s.live →
    (s.found.rail.serviceOpen = false →
      ∃ l : Lib, exec .serviceDoorOpened s = .next (s.settled l)
        ∧ l.rail.serviceOpen = true ∧ l.rail.interlock = true ∧ l.att.causes.getLsbD 2 = true
        ∧ (s.found.rail.interlock = false → ∀ x, s.found.isFaulted x = false →
            (s.found.acc x).state ≠ .halted → (l.acc x).state = .halted ∧ Msg.halt x ∈ l.out)
        ∧ (s.found.rail.interlock = false → (∀ y, (s.found.acc y).staged = none) → ∀ x q,
            (s.found.acc x).query = some q → q.purpose = .reconcile →
            (l.acc x).query = some q ∧ (l.acc x).timer = some s.set.timers.step))
    ∧ (s.found.rail.serviceOpen = true →
      ∃ l : Lib, exec .serviceDoorClosed s = .next (s.settled l)
        ∧ l.fixed = { s.found.fixed with serviceOpen := false }
        ∧ l.notes.raised = s.found.notes.raised
            ++ [{ source := .serviceDoorClosed, drive := none, columns := s.found.rail.haltedSpan, tag := none }])
    ∧ (∀ c, s.found.rail.serviceOpen = true → s.found.rail.interlock = true → s.found.rail.haltedSpan = some c →
      s.found.serving = true → entryOf s.set.links 2 = .auditSpan →
      (s.found.auditStands c = false → s.found.entryFree = true →
        ∃ t, exec .serviceDoorClosed s = .next t
          ∧ ∃ r ∈ t.lib.reqs.live, r.kind = .audit ∧ r.origin = .internal ∧ r.bySpan = true ∧ r.state = .queued
            ∧ r.priority = 1 ∧ r.cursor = some { next := c.lo, first := c.lo, last := c.hi })
      ∧ (s.found.auditStands c = true ∨ s.found.entryFree = false →
        ∃ t, exec .serviceDoorClosed s = .next t ∧ t.lib.reqs = s.found.reqs))

/-- FLOOR_MESSAGE_DISCARDED and PANEL_MESSAGE_DISCARDED change no record and send nothing. -/
def Obligations.DiscardedMessagesChangeNothing : Prop :=
  ∀ s : State, s.live →
    exec .floorMessageDiscarded s = .next { s with lib := { s.lib with out := [], notes := .none } }
    ∧ exec .panelMessageDiscarded s = .next { s with lib := { s.lib with out := [], notes := .none } }

/-! ## Drives and paths -/

/-- Define Drive: the drive takes the definition; its counts stand but for mounts since cleaning under the
reset-cleaning flag; its state and the other drives stand (R45 has an undefined drive stay OFFLINE; that one which
reports have made IDLE stays IDLE is the model's choice, log 26). Confirm Drive: the confirmed flag is set, and nothing else of the
records changes. -/
def Obligations.DefineAndConfirmDrive : Prop :=
 (∀ (f : DriveBlock) (s : State), s.live → s.serving → s.lib.shape = specShape →
    driveFieldsOk f s.lib.store.lib.columns = true →
    (s.lib.drive f.drive).state = .offline ∨ (s.lib.drive f.drive).state = .idle →
    ∃ l : Lib, exec (.defineDrive f) s = .next (s.after s.set (l.settle s.set) (.good []))
      ∧ (l.drive f.drive).defn = some
          { driveDefine f (s.lib.drive f.drive).defn with
            sinceClean := if f.resetCleaning = 1 then 0
              else ((s.lib.drive f.drive).defn.map DriveDef.sinceClean).getD 0 }
      ∧ (l.drive f.drive).state = (s.lib.drive f.drive).state
      ∧ (∀ d, d ≠ f.drive → l.drive d = s.lib.drive d)
      ∧ l.cat = s.lib.cat ∧ l.place = s.lib.place ∧ l.reqs = s.lib.reqs ∧ l.rail = s.lib.rail) ∧
 (∀ (d : Nat) (x : DriveDef) (s : State), s.live → s.serving → d < 16 → s.lib.shape = specShape →
    (s.lib.drive d).defn = some x →
    ∃ l : Lib, exec (.confirmDrive d) s = .next (s.after s.set (l.settle s.set) (.good []))
      ∧ l = { s.lib.begin with drives := l.drives, notes := l.notes }
      ∧ l.drive d = { s.lib.drive d with defn := some { x with confirmed := true } }
      ∧ ∀ e, e ≠ d → l.drive e = s.lib.drive e)

/-- Vary Drive: an IDLE drive goes OFFLINE; an OFFLINE drive, not detached, goes IDLE from the present reading, with
no reel (for a drive that still names an unrecorded reel the model's choice, log 46, since R52 says nothing of the
reel field); a drive at work keeps its state with offline-pending set; varying on clears offline-pending. Vary Path: the flag
of the path is set or cleared, and the set is returned (as one byte, the model's choice, log 11); disabling, or
enabling a path already enabled, changes nothing else. A MANUAL drive varied on is offered to the requests that wait
for one (R51, R74): the first it is eligible for, by priority and then queue sequence, gets it, and its MANUAL-MOUNT
is posted, or waits for a prompt slot. -/
def Obligations.VaryDriveAndPath : Prop :=
 (∀ (d : Nat) (s : State), s.live → s.serving → d < 16 → s.lib.shape = specShape →
    (s.lib.drive d).defn.isSome = true →
    let put (f : Drive → Drive) : Lib := { s.lib.begin with drives := s.lib.drives.modify d f }
    ((s.lib.drive d).state = .idle →
      exec (.varyDrive d 0) s = .next (s.after s.set (put fun v => { v with state := .offline }) (.good [])))
    ∧ ((∃ c, (s.lib.drive d).state = .mounted c) ∨ (s.lib.drive d).state = .threading
          ∨ (s.lib.drive d).state = .rewinding ∨ (s.lib.drive d).state = .awaitPick
          ∨ (s.lib.drive d).state = .cleaning →
      exec (.varyDrive d 0) s = .next (s.after s.set (put fun v => { v with offPending := true }) (.good [])))
    ∧ ((s.lib.drive d).state = .offline → (s.lib.drive d).detached = false →
      ∃ l : Lib, exec (.varyDrive d 1) s = .next (s.after s.set (l.settle s.set) (.good []))
        ∧ l = { s.lib.begin with drives := l.drives, notes := l.notes }
        ∧ l.drive d = { s.lib.drive d with
            state := .idle, serving := none, reel := .none, idleSince := some s.set.clock, offPending := false }
        ∧ ∀ e, e ≠ d → l.drive e = s.lib.drive e)
    ∧ (∀ (x : DriveDef) (r : Request), (s.lib.drive d).state = .offline → (s.lib.drive d).detached = false →
      (s.lib.drive d).cleanDue = false → (s.lib.drive d).defn = some x → x.kind = .manual → x.confirmed = true →
      let waits (q : Request) : Prop := q.state = .manual ∧ q.route = some .manualDrive ∧ q.drive = none
        ∧ (∃ p, q.path = some p ∧ p ∈ x.paths ∧ s.set.paths.getD p false = true)
        ∧ ∃ c, q.density = some c ∧ c ∈ x.densities
      s.lib.req? r.tag = some r → waits r →
      (∀ q ∈ s.lib.reqs.live, waits q → q.tag ≠ r.tag →
        r.priority < q.priority ∨ (r.priority = q.priority ∧ r.qseq.getD 0 < q.qseq.getD 0)) →
      ∃ (t : State) (q : Request), exec (.varyDrive d 1) s = .next t
        ∧ (t.lib.drive d).state = .reserved .manual ∧ (t.lib.drive d).serving = some r.tag
        ∧ t.lib.req? r.tag = some q ∧ q.drive = some d ∧ q.state = .manual
        ∧ ((∃ k p, t.lib.prompts.slots.getD k none = some p ∧ p.kind = .manualMount ∧ p.isRequest = true
              ∧ p.subject.tag = some r.tag ∧ p.subject.drive = some d)
          ∨ ∃ w ∈ t.lib.prompts.waits, w.kind = .manualMount ∧ w.tag = r.tag ∧ w.subject.drive = some d))
    ∧ ((s.lib.drive d).state = .offline → (s.lib.drive d).detached = true →
      exec (.varyDrive d 1) s = .next (s.after s.set s.lib.begin (.check .driveState (.drive d))))
    ∧ ((s.lib.drive d).state ≠ .offline →
      exec (.varyDrive d 1) s = .next (s.after s.set (put fun v => { v with offPending := false }) (.good [])))) ∧
 (∀ (p action : Nat) (s : State), s.live → s.serving → p < 8 → action ≤ 1 →
    ∃ l : Lib, exec (.varyPath p action) s
        = .next (s.after { s.set with paths := s.set.paths.set p (action = 1) }
            (l.settle { s.set with paths := s.set.paths.set p (action = 1) })
            (.good [⟨1, pathByte (s.set.paths.set p (action = 1))⟩]))
      ∧ l = { s.lib.begin with notes := l.notes }
      ∧ (action = 0 ∨ s.set.paths.getD p false = true → l = s.lib.begin))

/-- LOADED_READY in THREADING: the drive and its request become MOUNTED at the present reading; the threading
limit stops; lifetime mounts and mounts since cleaning rise by one. UNLOADED in REWINDING: the drive goes to
AWAIT-PICK with its limit stopped, and its error figure is added to the volume that the reel field names, or the
records place at the drive (R2), where there is one, saturating at 255, and to no other. In IDLE and OFFLINE a HOLDING-QUERY is sent, and in
RESERVED, in AWAIT-PICK and in FAULTED with no reel the report is discarded (R56). In these five the figure is added so
first, and nothing else changes. For an unrecorded reel it is added to no record. That it is added where the report
is discarded, and to the volume ON-DRIVE at the drive while the reel field says none, is the model's reading (log
34). -/
def Obligations.LoadedAndUnloadedReports : Prop :=
 (∀ (d tag : Nat) (label : Option Serial) (r : Request) (x : DriveDef) (s : State),
    s.live → s.lib.shape = specShape → d < 16 →
    (s.found.drive d).state = .threading → (s.found.drive d).serving = some tag →
    (s.found.drive d).defn = some x → s.found.req? tag = some r → r.cancelPending = false →
    ∃ l : Lib, exec (.loadedReady d label) s = .next (s.settled l)
      ∧ (l.drive d).state = .mounted s.set.clock ∧ (l.drive d).threadLeft = none
      ∧ (l.drive d).reported = normLabel label
      ∧ (l.drive d).defn = some { x with
          lifeMounts := satAdd max32 x.lifeMounts 1, sinceClean := satAdd max16 x.sinceClean 1 }
      ∧ (∃ q, l.req? tag = some q ∧ q.state = .mounted ∧ q.mountedAt = some s.set.clock
          ∧ q.accruedFrom = some s.set.clock)
      ∧ (∀ e, e ≠ d → l.drive e = s.found.drive e)) ∧
 (∀ (d errors : Nat) (s : State), s.live → s.lib.shape = specShape → d < 16 → errors ≤ 255 →
    let noVolume : Prop := (s.found.drive d).reel = .unrecorded
      ∨ ((s.found.drive d).reel = .none ∧ ∀ v ∈ s.found.cat.vols, v.state ≠ .onDrive d)
    ((s.found.drive d).state = .rewinding →
      ∃ l : Lib, exec (.unloaded d errors) s = .next (s.settled (l.enterAwaitPick s.set d))
        ∧ l.drives = s.found.drives
        ∧ (noVolume → l.cat = s.found.cat)
        ∧ (∀ serial v, s.found.vol? serial = some v →
            (s.found.drive d).reel = .recorded serial
              ∨ ((s.found.drive d).reel = .none ∧ s.found.volOnDrive? d = some v) →
            l.vol? serial = some { v with errors := if v.errors + errors ≤ 255 then v.errors + errors else 255 }
            ∧ ∀ x, x ≠ serial → l.vol? x = s.found.vol? x)
        ∧ (l.enterAwaitPick s.set d).drive d = { (l.enterAwaitPick s.set d).drive d with
            state := .awaitPick, threadLeft := none, unloadLeft := none })
    ∧ ((s.found.drive d).state = .idle ∨ (s.found.drive d).state = .offline →
      (noVolume →
        exec (.unloaded d errors) s = .next { s with lib := { s.found with
          drives := s.found.drives.modify d fun v => { v with queried := true }
          out := s.found.out ++ [.holdingQuery d] } })
      ∧ ∀ serial v, s.found.vol? serial = some v →
        (s.found.drive d).reel = .recorded serial
          ∨ ((s.found.drive d).reel = .none ∧ s.found.volOnDrive? d = some v) →
        ∃ l : Lib, exec (.unloaded d errors) s = .next { s with lib := l }
          ∧ l = { s.found with
              cat := { s.found.cat with vols := l.cat.vols }
              drives := s.found.drives.modify d fun v => { v with queried := true }
              out := s.found.out ++ [.holdingQuery d] }
          ∧ l.vol? serial = some { v with errors := if v.errors + errors ≤ 255 then v.errors + errors else 255 }
          ∧ ∀ x, x ≠ serial → l.vol? x = s.found.vol? x)
    ∧ ((∃ c, (s.found.drive d).state = .reserved c) ∨ (s.found.drive d).state = .awaitPick
        ∨ ((s.found.drive d).state = .faulted ∧ (s.found.drive d).reel = .none) →
      (noVolume → exec (.unloaded d errors) s = .next { s with lib := s.found })
      ∧ ∀ serial v, s.found.vol? serial = some v →
        (s.found.drive d).reel = .recorded serial
          ∨ ((s.found.drive d).reel = .none ∧ s.found.volOnDrive? d = some v) →
        ∃ l : Lib, exec (.unloaded d errors) s = .next { s with lib := l }
          ∧ l = { s.found with cat := { s.found.cat with vols := l.cat.vols } }
          ∧ l.vol? serial = some { v with errors := if v.errors + errors ≤ 255 then v.errors + errors else 255 }
          ∧ ∀ x, x ≠ serial → l.vol? x = s.found.vol? x))

/-- LOAD_FAILED, the threading limit and a drive fault in THREADING: the drive becomes FAULTED, UNLOAD is sent,
DRIVE-FAULT is raised, and the request goes to REWINDING with its code fixed. -/
def Obligations.ThreadingFails : Prop :=
  ∀ (d tag code : Nat) (r : Request) (s : State), s.live → s.lib.shape = specShape → d < 16 →
    1 ≤ code → code ≤ 255 →
    (s.found.drive d).state = .threading → (s.found.drive d).serving = some tag → s.found.req? tag = some r →
    let fails (c : Instr) (fault : Nat) (fixed : Code) : Prop :=
      ∃ l : Lib, exec c s = .next (s.settled l)
        ∧ (l.drive d).state = .faulted ∧ (l.drive d).fault = fault ∧ (l.drive d).threadLeft = none
        ∧ Msg.unload d ∈ l.out
        ∧ { source := .driveFault, drive := some d, columns := none, tag := none } ∈ l.notes.raised
        ∧ (∃ q, l.req? tag = some q ∧ q.state = .rewinding ∧ q.code = some (r.code.getD fixed))
        ∧ (∀ e, e ≠ d → l.drive e = s.found.drive e) ∧ l.cat = s.found.cat
    fails (.loadFailed d) 0 .loadFailed
    ∧ ((s.found.drive d).threadLeft = some 0 → fails (.threadingLimitExpiry d) 0 .loadFailed)
    ∧ fails (.driveFaultReport d code) code .driveFault

/-- UNLOAD_PRESSED and the unload limit: a MOUNTED drive goes to REWINDING with the limit started; a drive whose
unload limit runs out in REWINDING becomes FAULTED and its request's code is fixed as DRIVE-FAULT. -/
def Obligations.UnloadPressedAndLimit : Prop :=
  ∀ (d : Nat) (s : State), s.live → s.lib.shape = specShape → d < 16 →
    (∀ since, (s.found.drive d).state = .mounted since →
      ∃ l : Lib, exec (.unloadPressed d) s = .next (s.settled l)
        ∧ (l.drive d).state = .rewinding ∧ (l.drive d).unloadLeft = some s.set.timers.unload
        ∧ (∀ tag r, (s.found.drive d).serving = some tag → s.found.req? tag = some r →
            ∃ q, l.req? tag = some q ∧ q.state = .rewinding ∧ q.accruedFrom = none)
        ∧ ∀ e, e ≠ d → l.drive e = s.found.drive e)
    ∧ (∀ tag r, (s.found.drive d).state = .rewinding → (s.found.drive d).unloadLeft = some 0 →
      (s.found.drive d).serving = some tag → s.found.req? tag = some r → r.state ≠ .manual →
      ∃ l : Lib, exec (.unloadLimitExpiry d) s = .next (s.settled l)
        ∧ (l.drive d).state = .faulted ∧ (l.drive d).fault = 0 ∧ (l.drive d).unloadLeft = none
        ∧ { source := .driveFault, drive := some d, columns := none, tag := none } ∈ l.notes.raised
        ∧ (∃ q, l.req? tag = some q ∧ q.code = some (r.code.getD .driveFault))
        ∧ ∀ e, e ≠ d → l.drive e = s.found.drive e)

/-- REEL_REMOVED from a MANUAL drive in AWAIT-PICK with a recorded reel and no request: the volume goes to the
shelf and the drive to IDLE; from an AUTOMATED drive the report changes nothing. CLEAN_NEEDED: outside CLEANING
cleaning-due is set and CLEANING-REQUESTED is raised; in CLEANING it is discarded. With the source linked to
QUEUE-CLEAN (R168; here with the interlock flag set, so that no order is staged) an internal CLEAN of the drive is
QUEUED with the cleaner R13 chooses, which it holds; with no cleaner, a live CLEAN of the drive, no free entry or a
drive that is not AUTOMATED none is made. -/
def Obligations.ReelRemovedAndCleanNeeded : Prop :=
 (∀ (d : Nat) (s : State), s.live → s.lib.shape = specShape → d < 16 →
    (∀ serial v, s.found.isAutomated d = false → (s.found.drive d).state = .awaitPick →
      (s.found.drive d).reel = .recorded serial → (s.found.drive d).serving = none →
      (s.found.drive d).offPending = false → s.found.vol? serial = some v →
      ∃ l : Lib, exec (.reelRemoved d) s = .next (s.settled l)
        ∧ (∃ w, l.vol? serial = some w ∧ w.state = .shelf ∧ w.homeCell = none)
        ∧ l.drive d = { s.found.drive d with
            state := .idle, serving := none, reel := .none, idleSince := some s.set.clock }
        ∧ ∀ e, e ≠ d → l.drive e = s.found.drive e)
    ∧ (s.found.isAutomated d = true → exec (.reelRemoved d) s = .next { s with lib := s.found })) ∧
 (∀ (d : Nat) (s : State), s.live → d < 16 →
    ((s.found.drive d).state ≠ .cleaning →
      exec (.cleanNeeded d) s = .next (s.settled { s.found with
        drives := s.found.drives.modify d fun v => { v with cleanDue := true }
        notes := { s.found.notes with raised := s.found.notes.raised
          ++ [{ source := .cleaningRequested, drive := some d, columns := none, tag := none }] } }))
    ∧ ((s.found.drive d).state = .cleaning → exec (.cleanNeeded d) s = .next { s with lib := s.found })
    ∧ ((s.found.drive d).state ≠ .cleaning → s.found.rail.interlock = true → s.found.serving = true →
      entryOf s.set.links 3 = .queueClean →
      (∀ v, s.found.isAutomated d = true → s.found.cleanNames d = false → s.found.entryFree = true →
        s.found.chooseCleaner = some v → s.found.vol? v.serial = some v → v.serial ∉ s.found.cat.scratch →
        ∃ t, exec (.cleanNeeded d) s = .next t
          ∧ ∃ r ∈ t.lib.reqs.live, r.kind = .clean ∧ r.origin = .internal ∧ r.state = .queued ∧ r.priority = 1
            ∧ r.drive = some d ∧ r.cargo = .volume v.serial ∧ r.source = v.homeCell.map Place.cell
            ∧ (t.lib.vol? v.serial).bind Volume.holder = some r.tag)
      ∧ (s.found.isAutomated d = false ∨ s.found.cleanNames d = true ∨ s.found.entryFree = false
          ∨ s.found.chooseCleaner = none →
        exec (.cleanNeeded d) s = .next { s with lib := { s.found with
          drives := s.found.drives.modify d fun v => { v with cleanDue := true } } })))

/-- OFFLINE of an IDLE drive: detached is set, and the drive goes OFFLINE. ONLINE of a detached drive that is OFFLINE,
in READY: detached is cleared, the drive is no longer confirmed, DRIVE-ATTACHED is raised, and the drive is asked what
it holds; a reconcile reply that was still awaited (R180) is awaited no longer (the flag for it is the model's,
log 34). ONLINE of a drive that is not detached changes nothing. The other rows of R47's tables are not stated
here. -/
def Obligations.DetachAndReattach : Prop :=
  ∀ (d : Nat) (s : State), s.live → s.lib.shape = specShape → d < 16 →
    ((s.found.drive d).state = .idle →
      exec (.offline d) s = .next { s with lib := { s.found with
        drives := s.found.drives.modify d fun v => { v with detached := true, state := .offline } } })
    ∧ ((s.found.drive d).detached = true → s.found.start.state = .ready → (s.found.drive d).state = .offline →
      ∃ l : Lib, exec (.online d) s = .next (s.settled l)
        ∧ l.drive d = { s.found.drive d with
            detached := false, late := false, queried := true
            defn := (s.found.drive d).defn.map fun x => { x with confirmed := false } }
        ∧ l.out = s.found.out ++ [.holdingQuery d]
        ∧ l.notes.raised = s.found.notes.raised
            ++ [{ source := .driveAttached, drive := some d, columns := none, tag := none }]
        ∧ ∀ e, e ≠ d → l.drive e = s.found.drive e)
    ∧ ((s.found.drive d).detached = false → exec (.online d) s = .next { s with lib := s.found })

/-- HOLDING, outside the reconcile phase: an OFFLINE drive that holds nothing goes IDLE, offline-pending or not; a
LOADED reel that no record places there is unloaded; an UNLOADED one waits to be picked, at an AUTOMATED drive with
a RETURN for it when an entry is free; a reply not asked for changes nothing. RECONCILE_QUERY_EXPIRY: a drive that
has not answered its query is detached, no longer asked, and its late reply is awaited (the flag for it is the
model's, log 34), whatever state it is in: for a drive that is OFFLINE that is R180's, and that one which has left
OFFLINE keeps its state is the model's choice (log 50); an expiry taken before its time changes nothing (the model's
choice, log 8). -/
def Obligations.HoldingQueryEnds : Prop :=
 (∀ (d : Nat) (s : State), s.live → s.lib.shape = specShape → d < 16 →
    ((s.found.drive d).queried = true → (s.found.drive d).queryLeft = none → (s.found.drive d).late = false →
      (s.found.drive d).state = .offline →
      (∃ l : Lib, exec (.holding d .nothing) s = .next (s.settled l)
          ∧ l.drive d = { s.found.drive d with
              state := .idle, serving := none, reel := .none, idleSince := some s.set.clock, queried := false
              reported := none }
          ∧ ∀ e, e ≠ d → l.drive e = s.found.drive e)
      ∧ (∀ raw, ∃ l : Lib, exec (.holding d (.reel raw true)) s = .next (s.settled l)
          ∧ (l.drive d).state = .rewinding ∧ (l.drive d).reel = .unrecorded
          ∧ (l.drive d).reported = normLabel raw ∧ Msg.unload d ∈ l.out
          ∧ ∀ e, e ≠ d → l.drive e = s.found.drive e)
      ∧ ∀ raw, ∃ l : Lib, exec (.holding d (.reel raw false)) s = .next (s.settled l)
          ∧ (l.drive d).state = .awaitPick ∧ (l.drive d).reel = .unrecorded
          ∧ (l.drive d).reported = normLabel raw
          ∧ (s.found.isAutomated d = true → s.found.entryFree = true →
              ∃ r ∈ l.reqs.live, r.kind = .ret ∧ r.origin = .internal ∧ r.state = .returnReady
                ∧ r.cargo = .unknown (normLabel raw) ∧ r.source = some (.drive d)
                ∧ (l.drive d).serving = some r.tag)
          ∧ (s.found.isAutomated d = false ∨ s.found.entryFree = false → (l.drive d).serving = none)
          ∧ ∀ e, e ≠ d → l.drive e = s.found.drive e)
    ∧ (∀ reply, (s.found.drive d).queried = false → (s.found.drive d).late = false →
        exec (.holding d reply) s = .next { s with lib := s.found })) ∧
 (∀ (d : Nat) (s : State), s.live → s.lib.shape = specShape → d < 16 →
    ((s.found.drive d).queryLeft = some 0 →
      (∀ v ∈ s.found.cat.vols, v.state ≠ .onDrive d) →
      exec (.reconcileQueryExpiry d) s = .next { s with lib := { s.found with
        drives := s.found.drives.modify d fun v =>
          { v with queried := false, queryLeft := none, detached := true, late := true } } })
    ∧ ((s.found.drive d).queryLeft ≠ some 0 →
      exec (.reconcileQueryExpiry d) s = .next { s with lib := s.found }))

/-! ## Accounts -/

/-- Open Account: an OPEN record with its limit and quota (0 for none), every total zero, and the period begun
now; every other record stands. Close Account: an account that no live request names and that owns no volume is
gone; one in use is refused with ACCOUNT-BUSY. -/
def Obligations.OpenAndCloseAccount : Prop :=
 (∀ (n limit quota : Nat) (s : State), s.live → s.serving →
    1 ≤ n → n ≤ 9999 → limit ≤ 16 → quota ≤ 65535 → s.lib.account? n = none →
    s.lib.acct.accounts.length < 128 →
    ∃ l : Lib, exec (.openAccount n limit quota) s = .next (s.after s.set l (.good []))
      ∧ l = { s.lib.begin with acct := { s.lib.acct with accounts := l.acct.accounts } }
      ∧ l.account? n = some
          { number := n, suspended := false, limit := limit, quota := if quota = 0 then none else some quota
            mounts := 0, scratchMounts := 0, driveSeconds := 0, manual := 0, refusals := 0, overflow := false
            stamp := 0, periodStart := s.set.clock, lastRead := none }
      ∧ ∀ m, m ≠ n → l.account? m = s.lib.account? m) ∧
 (∀ (n : Nat) (a : Account) (s : State), s.live → s.serving → 1 ≤ n → n ≤ 9999 → s.lib.account? n = some a →
    let used : Prop := (∃ r ∈ s.lib.reqs.live, r.account = some n) ∨ 0 < s.lib.ownedCount n
    (¬used →
      ∃ l : Lib, exec (.closeAccount n) s = .next (s.after s.set l (.good []))
        ∧ l = { s.lib.begin with acct := { s.lib.acct with accounts := l.acct.accounts } }
        ∧ l.account? n = none ∧ ∀ m, m ≠ n → l.account? m = s.lib.account? m)
    ∧ (used → exec (.closeAccount n) s = .next (s.after s.set s.lib.begin (.check .accountBusy (.account n)))))

/-- Update, Suspend and Resume Account change the fields they name of the one record, and nothing else of the
records; a raised limit and the resumption of a SUSPENDED account let the dispatcher run. -/
def Obligations.AccountChangesOneRecord : Prop :=
  ∀ (n : Nat) (a : Account) (s : State), s.live → s.serving → 1 ≤ n → n ≤ 9999 →
    s.lib.account? n = some a →
    let changes (c : Instr) (b : Account) (frees : Prop) : Prop :=
      ∃ l : Lib, exec c s = .next (s.after s.set (l.settle s.set) (.good []))
        ∧ l = { s.lib.begin with acct := { s.lib.acct with accounts := l.acct.accounts }, notes := l.notes }
        ∧ l.account? n = some b ∧ (∀ m, m ≠ n → l.account? m = s.lib.account? m)
        ∧ (l.notes.wake = true ↔ frees) ∧ l.notes.raised = []
    (∀ limit quota, limit ≤ 16 → quota ≤ 65535 →
      changes (.updateAccount n limit quota)
        { a with limit := limit, quota := if quota = 0 then none else some quota } (a.limit < limit))
    ∧ changes (.suspendAccount n) { a with suspended := true } False
    ∧ changes (.resumeAccount n) { a with suspended := false } (a.suspended = true)

/-- Read Account returns 40 bytes, laid out as R204 gives, each number most significant byte first, and notes the
read time; Close Period with the stamp read clears the totals,
and the period begins at the read time; without a reading it is refused with SEQUENCE, with another stamp with
STALE-PERIOD. -/
def Obligations.ReadAndClosePeriod : Prop :=
  ∀ (n : Nat) (a : Account) (s : State), s.live → s.serving → 1 ≤ n → n ≤ 9999 → s.lib.account? n = some a →
    let clock (c : Clock) : Nat := c.day * 2 ^ 24 + c.second
    let mounted : List Request := s.lib.reqs.live.filter fun r => r.account = some a.number ∧ r.state = .mounted
    let data : List Field :=
      [⟨2, a.number⟩, ⟨1, if a.suspended then 2 else 1⟩, ⟨1, a.limit⟩, ⟨2, a.quota.getD 0⟩,
       ⟨1, (if a.quota.isSome then 1 else 0) + (if a.overflow then 2 else 0)⟩,
       ⟨1, s.lib.heldCount a.number⟩, ⟨1, s.lib.queuedCount a.number⟩, ⟨2, s.lib.ownedCount a.number⟩,
       ⟨2, a.mounts⟩, ⟨2, a.scratchMounts⟩, ⟨4, a.driveSeconds⟩, ⟨2, a.manual⟩, ⟨2, a.refusals⟩, ⟨2, a.stamp⟩,
       ⟨5, clock a.periodStart⟩, ⟨5, clock s.set.clock⟩, ⟨1, mounted.length⟩,
       ⟨4, s.lib.openSeconds s.set.clock a.number⟩]
    (∃ l : Lib, exec (.readAccount n) s = .next (s.after s.set l (.good data))
      ∧ (dataBytes data).length = 40
      ∧ l = { s.lib.begin with acct := { s.lib.acct with accounts := l.acct.accounts } }
      ∧ l.account? n = some { a with lastRead := some s.set.clock }
      ∧ ∀ m, m ≠ n → l.account? m = s.lib.account? m)
    ∧ (∀ t, a.lastRead = some t → a.stamp ≤ 65535 →
      ∃ l : Lib, exec (.closePeriod n a.stamp) s = .next (s.after s.set l (.good []))
        ∧ l = { s.lib.begin with acct := { s.lib.acct with accounts := l.acct.accounts }, reqs := l.reqs }
        ∧ l.account? n = some { a with
            mounts := 0, scratchMounts := 0, driveSeconds := 0, manual := 0, refusals := 0, overflow := false
            periodStart := t, lastRead := none }
        ∧ (∀ m, m ≠ n → l.account? m = s.lib.account? m)
        ∧ l.reqs.live = s.lib.reqs.live.map fun r =>
            if r.account = some n ∧ r.state = .mounted then { r with accruedFrom := some t } else r)
    ∧ (∀ stamp, stamp ≤ 65535 → a.lastRead = none →
      exec (.closePeriod n stamp) s = .next (s.after s.set s.lib.begin (.check .sequence (.account n))))
    ∧ (∀ stamp t, stamp ≤ 65535 → a.lastRead = some t → stamp ≠ a.stamp →
      exec (.closePeriod n stamp) s = .next (s.after s.set s.lib.begin (.check .stalePeriod (.account n))))

/-- CLOCK_SECOND: the clock is one second on, across midnight and from the last day to day 0, and every running
timer, of the port, the drives, the requests, the accessors, the prompts, the accounts and start-up, has one second
less (that a timer counts down by this row is the model's choice, log 8); nothing else changes. PERIOD_TIMER_EXPIRY:
the timer starts again with its length and PERIOD-TIMER is raised; before its time nothing changes (log 8). The link
of the source then acts: NONE does nothing more, RAISE-ATTENTION sets the LINKED-EVENT cause and adds source 11 to
the linked-source set, POST-NOTICE posts PERIOD-DUE in the lowest FREE slot, and SCAN-STATION is skipped outside
READY or with the door OPEN. -/
def Obligations.ClockAndPeriodTimer : Prop :=
 (∀ s : State, s.live →
    let less (t : Option Nat) : Option Nat := t.map (· - 1)
    ∃ c : Clock, exec .clockSecond s
        = .next { s with
            set := { s.set with clock := c }
            port := { s.port with stall := less s.port.stall }
            lib := { s.lib.begin with
              drives := s.lib.drives.map fun v => { v with
                threadLeft := less v.threadLeft, unloadLeft := less v.unloadLeft, queryLeft := less v.queryLeft }
              reqs := { s.lib.reqs with
                live := s.lib.reqs.live.map fun r => { r with stallLeft := less r.stallLeft } }
              rail := { s.lib.rail with
                accA := { s.lib.rail.accA with timer := less s.lib.rail.accA.timer }
                accB := { s.lib.rail.accB with timer := less s.lib.rail.accB.timer } }
              prompts := { s.lib.prompts with slots := s.lib.prompts.slots.map (Option.map fun p => { p with
                deadlineLeft := less p.deadlineLeft, reannounceLeft := less p.reannounceLeft }) }
              acct := { s.lib.acct with periodLeft := s.lib.acct.periodLeft - 1 }
              start := { s.lib.start with limit := match s.lib.start.limit with
                | .running n => .running (n - 1)
                | x => x } } }
      ∧ (s.set.clock.second < 86399 → c = { s.set.clock with second := s.set.clock.second + 1 })
      ∧ (s.set.clock.second = 86399 → c = ⟨(s.set.clock.day + 1) % 65536, 0⟩)) ∧
 (∀ s : State, s.live →
    let begun : Lib := { s.found with acct := { s.found.acct with periodLeft := s.set.timers.period } }
    let entry : Action := entryOf s.set.links 11
    (s.found.acct.periodLeft = 0 →
      exec .periodTimerExpiry s = .next (s.settled { begun with
        notes := { s.found.notes with raised := s.found.notes.raised
          ++ [{ source := .periodTimer, drive := none, columns := none, tag := none }] } })
      ∧ (entry = .none → exec .periodTimerExpiry s = .next { s with lib := begun })
      ∧ (entry = .raiseAttention →
        exec .periodTimerExpiry s = .next { s with lib := { begun with
          att := { causes := s.found.att.causes ||| 0x10, linked := s.found.att.linked ||| 0x400 } } })
      ∧ (∀ k, entry = .postNotice → s.lib.shape = specShape → s.found.freePromptSlot = some k →
        (∀ j p, s.found.prompts.slots.getD j none = some p → p.kind ≠ .periodDue) →
        ∃ (l : Lib) (p : Prompt), exec .periodTimerExpiry s = .next { s with lib := l }
          ∧ l = { begun with prompts := l.prompts, out := l.out }
          ∧ l.prompts.slots.getD k none = some p ∧ p.kind = .periodDue ∧ p.isRequest = false
          ∧ p.posted = s.set.clock ∧ p.answer = none
          ∧ ∀ j, j ≠ k → l.prompts.slots.getD j none = s.found.prompts.slots.getD j none)
      ∧ (entry = .scanStation → s.found.start.state ≠ .ready ∨ s.found.place.doorOpen = true →
        exec .periodTimerExpiry s = .next { s with lib := begun }))
    ∧ (s.found.acct.periodLeft ≠ 0 → exec .periodTimerExpiry s = .next { s with lib := s.found }))

/-! ## Start-up and the library -/

/-- Define Library: the definition becomes the pending one; in READY with no live request the fields other than
the geometry take effect at once. Format Catalogue: with a pending definition, no interlock and no live request
the library is FORMATTING; FORMAT_CLEARING clears the catalogue, the accounts and the cells, and writes the
header. -/
def Obligations.DefineAndFormatLibrary : Prop :=
 (∀ (f : LibraryBlock) (s : State), s.live → libraryFieldsOk f = true → disabledOk f = true →
    (s.lib.start.state = .unformatted →
      exec (.defineLibrary f) s = .next (s.after s.set { s.lib.begin with store := { s.lib.store with
        pendingDef := some { lib := LibDef.ofBlock f, disabled := f.disabled } } } (.good [])))
    ∧ (s.lib.start.state = .ready → s.lib.reqs.live = [] →
      exec (.defineLibrary f) s = .next (s.after s.set { s.lib.begin with store := { s.lib.store with
        lib := { s.lib.store.lib with
          stationColumn := f.stationColumn, autoEnter := f.autoEnter = 1, autoDensity := f.autoDensity
          fullStart := f.startMode = 2 }
        pendingDef := some { lib := LibDef.ofBlock f, disabled := f.disabled } } } (.good [])))) ∧
 (∀ (p : PendingDef) (s : State), s.live → s.lib.store.pendingDef = some p →
    (s.lib.start.state ≠ .formatting → s.lib.rail.interlock = false → s.lib.reqs.live = [] →
      exec .formatCatalogue s = .next (s.after s.set
        { s.lib.begin with start := { s.lib.start with state := .formatting, clearing := true } } (.good [])))
    ∧ (s.lib.start.clearing = true → s.lib.reqs.live = [] →
      ∃ l : Lib, exec .formatClearing s = .next { s with lib := l.settle s.set }
        ∧ l.store = { mark := true, checked := true, lib := p.lib, pendingDef := none }
        ∧ l.start = { s.lib.start with clearing := false }
        ∧ l.cat.vols = [] ∧ l.cat.scratch = [] ∧ l.acct.accounts = []
        ∧ l.place.cells = (List.range (p.lib.columns * p.lib.perColumn)).map fun n =>
            if p.disabled.contains n then .disabled else .empty none))

/-- AUDIT_PHASE: when the reconcile phase and the homing have ended, the audit phase begins. The columns chosen are
every column in FULL mode, and in QUICK mode each that held a cell recorded AWAITED at the store check; for each run
of consecutive ones, in ascending order, an internal AUDIT of priority 1 over the run is QUEUED with a tag not in use,
and the runs that find no entry free wait for one; the requests that stood stand. With nothing to audit no request is
made. -/
def Obligations.AuditPhaseBegins : Prop :=
  ∀ s : State, s.live → s.found.start.state = .starting → s.found.start.phase = .reconcile →
    s.found.reconciled = true → s.found.homed = true →
    ∃ l : Lib, exec .auditPhase s = .next (s.settled l)
      ∧ l.start.phase = .audit ∧ l.start.state = .starting ∧ l.cat = s.found.cat
      ∧ (let chosen (c : Nat) : Prop := c < s.found.columns
          ∧ (s.found.store.lib.fullStart = true ∨ ∃ n ∈ s.found.start.awaited, s.found.cellCol n = c)
        let free : Nat := 48 - s.found.reqs.live.length
        ∃ (runs : List Span) (audits : List Request),
          (∀ c, chosen c ↔ ∃ r ∈ runs, r.lo ≤ c ∧ c ≤ r.hi)
          ∧ (∀ r ∈ runs, r.lo ≤ r.hi) ∧ runs.Pairwise (fun r q => r.hi + 1 < q.lo)
          ∧ l.reqs.live = s.found.reqs.live ++ audits
          ∧ audits.map Request.cursor
              = (runs.take free).map (fun r => some { next := r.lo, first := r.lo, last := r.hi })
          ∧ (∀ q ∈ audits, q.kind = .audit ∧ q.origin = .internal ∧ q.priority = 1 ∧ q.state = .queued
              ∧ ∀ r ∈ s.found.reqs.live, r.tag ≠ q.tag)
          ∧ l.start.audits = audits.map Request.tag ∧ l.start.runs = runs.drop free)
      ∧ (s.found.store.lib.fullStart = false → s.found.start.awaited = [] →
          l = { s.found with start := { s.found.start with phase := .audit, audits := [], runs := [] } })

/-- ENTER_READY: when the audits of start-up, or the homing of a format, have ended, the library is READY, the
start limit stops, and the STARTUP-COMPLETE cause is set. START_LIMIT_EXPIRY: the limit stands expired, and a
HELD request of the host ends DONE, NOT-READY (here with one request in the table). -/
def Obligations.StartUpEnds : Prop :=
 (∀ s : State, s.live → s.found.mayEnter = true →
    ∃ l : Lib, exec .enterReady s = .next (s.settled l)
      ∧ l.att.causes.getLsbD 3 = true ∧ l.notes.wake = true
      ∧ l.fixed = { s.found.fixed with state := .ready, limit := .stopped }
      ∧ (l.settle s.set).fixed = l.fixed) ∧
 (∀ s : State, s.live → s.found.start.limit = .running 0 →
    (∃ t, exec .startLimitExpiry s = .next t ∧ t.lib.fixed = { s.found.fixed with limit := .expired })
    ∧ ∀ r, s.found.reqs.live = [r] → r.state = .held → r.origin = .link → r.code = none →
      ∃ l q : _, exec .startLimitExpiry s = .next (s.settled l) ∧ l.req? r.tag = some q
        ∧ q.state = ReqState.done ∧ q.code = some Code.notReady)

/-! ## Prompts and the panel -/

/-- Post Message: the lowest FREE slot takes a POSTED host message with its text, mode, deadline and the posted
time, and the slot and the posting number are returned; with no FREE slot it is refused. Withdraw Message, and
Query Prompt of an ANSWERED message, free the slot; the query returns the record as it stood (here no request
prompt waits for the slot). The record returned and the widths of the data returned are the model's choice
(log 11). -/
def Obligations.HostMessageSlot : Prop :=
 (∀ (f : MessageBlock) (s : State), s.live → s.serving → messageOk f = true → s.lib.shape = specShape →
    (∀ k, s.lib.freePromptSlot = some k →
      ∃ (l : Lib) (p : Prompt), exec (.postMessage f) s
          = .next (s.after s.set l (.good [⟨1, k⟩, ⟨2, p.posting⟩]))
        ∧ l = { s.lib.begin with prompts := l.prompts, out := l.out }
        ∧ l.prompts.slots.getD k none = some p ∧ p.kind = .hostMessage ∧ p.text = f.text.take f.length
        ∧ p.isRequest = false ∧ p.posted = s.set.clock ∧ p.answer = none
        ∧ p.mode = (if f.mode = 0 then .silent else if f.mode = 1 then .once else .persistent)
        ∧ p.deadline = (if f.deadline = 0 then none else some (s.set.clock.after f.deadline))
        ∧ p.deadlineLeft = (if f.deadline = 0 then none else some f.deadline)
        ∧ p.reannounceLeft = (if f.mode = 2 then some s.set.timers.reannounce else none)
        ∧ ∀ j, j ≠ k → l.prompts.slots.getD j none = s.lib.prompts.slots.getD j none)
    ∧ (s.lib.freePromptSlot = none →
      exec (.postMessage f) s = .next (s.after s.set s.lib.begin (.check .promptTableFull .none)))) ∧
 (∀ (k : Nat) (p : Prompt) (s : State), s.live → s.serving → k < 16 → s.lib.shape = specShape →
    s.lib.prompts.slots.getD k none = some p → s.lib.prompts.waits = [] →
    let frees (c : Instr) (data : List Field) : Prop :=
      ∃ l : Lib, exec c s = .next (s.after s.set l (.good data))
        ∧ l = { s.lib.begin with prompts := l.prompts, out := l.out }
        ∧ l.prompts.slots.getD k none = none
    (p.kind = .hostMessage → frees (.withdrawMessage k p.posting) [])
    ∧ (p.answer ≠ none → frees (.queryPrompt k) (postedFields p))
    ∧ (∀ n, n ≠ p.posting →
      exec (.withdrawMessage k n) s = .next (s.after s.set s.lib.begin (.check .promptUnknown (.prompt k)))))

/-- A KEY is answered by one REPLY, after everything it brings about: GONE when no POSTED slot bears the posting
number, NOT-VALID when the key does not answer that posting, TAKEN otherwise; a key not TAKEN changes no record. NEXT
answers every posting; the other keys answer by kind and class as the table of R127 gives. -/
def Obligations.KeyReplies : Prop :=
  ∀ (n : Nat) (s : State), s.live → n ≤ 65535 →
    let valid (key : KeyName) (p : Prompt) : Prop := match key with
      | .next => True
      | .accept => p.isRequest = false ∧ p.kind ∈ [.accessorFault, .driveAttention, .hostMessage, .unknownVolume,
          .volumeMissing, .libraryFull, .cleanerExhausted, .scratchLow, .queueStall, .cleaningDue, .periodDue]
      | .refuse => p.kind ∈ [.manualMount, .stationInsert, .hostMessage]
      | .done => p.isRequest = true ∧ p.kind = .driveAttention
    let replies (key : KeyName) (c : Instr) : Prop :=
      ∃ (t : State) (result : ReplyResult), exec c s = .next t
        ∧ t.lib.out.getLast? = some (.reply n key result)
        ∧ (result = .gone ↔ s.found.posted? n = none)
        ∧ (result = .taken ↔ ∃ x, s.found.posted? n = some x ∧ valid key x.2)
        ∧ (result = .notValid ↔ ∃ x, s.found.posted? n = some x ∧ ¬valid key x.2)
        ∧ (result ≠ .taken → t = { s with lib := { s.found with out := s.found.out ++ [.reply n key result] } })
    replies .next (.keyNext n) ∧ replies .accept (.keyAccept n) ∧ replies .refuse (.keyRefuse n)
      ∧ replies .done (.keyDone n)

/-- ACCEPT and REFUSE of a host message, and its deadline, make it ANSWERED with the answer concerned, and set
the MESSAGE-ANSWERED cause. REFUSE of a manual mount or a station insert ends its request OPERATOR-REFUSED, and
its manual deadline PROMPT-TIMEOUT with PROMPT-TIMEOUT raised. -/
def Obligations.PromptsAnswered : Prop :=
 (∀ (n k : Nat) (p : Prompt) (s : State), s.live → s.lib.shape = specShape → n ≤ 65535 →
    s.found.posted? n = some (k, p) → p.kind = .hostMessage → p.isRequest = false →
    let answers (c : Instr) (answer : Answer) : Prop :=
      ∃ t, exec c s = .next t
        ∧ t.lib.prompts.slots.getD k none = some { p with
            answer := some answer, deadline := none, deadlineLeft := none, reannounceLeft := none }
        ∧ t.lib.att.causes.getLsbD 1 = true ∧ t.lib.cat = s.found.cat ∧ t.lib.reqs = s.found.reqs
    answers (.keyAccept n) .accept ∧ answers (.keyRefuse n) .refuse
      ∧ (p.deadlineLeft = some 0 → answers (.hostMessageDeadlineExpiry n) .timeout)) ∧
 (∀ (n k tag : Nat) (p : Prompt) (r : Request) (s : State), s.live → n ≤ 65535 →
    s.found.posted? n = some (k, p) → (p.kind = .manualMount ∨ p.kind = .stationInsert) → p.isRequest = true →
    p.subject.tag = some tag → s.found.req? tag = some r → r.state = .manual → r.origin = .link → r.code = none →
    (∃ (l : Lib) (q : Request), exec (.keyRefuse n) s
        = .next { s with lib := (l.settle s.set).send (.reply n .refuse .taken) }
      ∧ l.req? tag = some q ∧ q.state = .done ∧ q.code = some .operatorRefused)
    ∧ (p.deadlineLeft = some 0 →
      ∃ (l : Lib) (q : Request), exec (.manualDeadlineExpiry n) s = .next (s.settled l)
        ∧ l.req? tag = some q ∧ q.state = .done ∧ q.code = some .promptTimeout
        ∧ { source := .promptTimeout, drive := none, columns := none, tag := some tag } ∈ l.notes.raised))

/-- NEXT presents the posting after the one named in presentation order, the first after the last; when a NEXT that
named the same posting has brought the presented one, it presents the posting after that one, so that a NEXT taken
twice steps twice (R206; that it is told by the posting named is the model's choice, log 30); a posting that stays
presented is not sent again (log 30). DONE of a DRIVE-ATTENTION that a request waits on: the request ends DONE with
the code fixed, its volume is MISSING with its home cleared and VOLUME-MISSING raised, the drive is OFFLINE and empty
and serves none, and a manual action is accrued to the account. RE_ANNOUNCE_EXPIRY: the timer starts again, and a
presented posting is presented once more with the alert; HELLO: the last presentation is sent again with the alert
flag clear, and no slot changes (that it finds the clearing of a format made is the model's choice, log 7). -/
def Obligations.PanelAnswers : Prop :=
 (∀ (n k : Nat) (p : Prompt) (s : State), s.live → s.lib.shape = specShape → n ≤ 65535 →
    s.found.posted? n = some (k, p) →
    let follower (m : Nat) : Option (Nat × Prompt) :=
      Lib.entryAfter s.found.presentationOrder.head? m s.found.presentationOrder
    let presents (x : Nat × Prompt) : Prop :=
      ∃ l : Lib, exec (.keyNext n) s = .next { s with lib := l.send (.reply n .next .taken) }
        ∧ l.prompts.presented = some x.2.posting ∧ l.prompts.stepped = some n
        ∧ l = { s.found with prompts := l.prompts, out := l.out }
        ∧ (s.found.prompts.presented = some x.2.posting →
          l = { s.found with prompts := { s.found.prompts with stepped := some n } })
    (∀ x, follower n = some x → s.found.prompts.stepped ≠ some n ∨ s.found.prompts.presented = none → presents x)
    ∧ (∀ m x, s.found.prompts.stepped = some n → s.found.prompts.presented = some m → follower m = some x →
      presents x)
    ∧ (∀ d tag r serial v c a account, p.kind = .driveAttention → p.isRequest = true → p.subject.drive = some d →
      d < 16 → p.subject.tag = some tag → s.found.req? tag = some r → r.origin = .link → r.state ≠ .done →
      r.code = some c → c ≠ .operatorRefused → r.account = some account → s.found.account? account = some a →
      (s.found.drive d).state = .faulted → (s.found.drive d).serving = some tag →
      (s.found.drive d).reel = .recorded serial → s.found.vol? serial = some v → v.state = .onDrive d →
      (∀ e, e ≠ d → (s.found.drive e).serving ≠ some tag) →
      ∃ (l : Lib) (q : Request), exec (.keyDone n) s
          = .next { s with lib := (l.settle s.set).send (.reply n .done .taken) }
        ∧ l.req? tag = some q ∧ q.state = .done ∧ q.code = some c
        ∧ (∃ w, l.vol? serial = some w ∧ w.state = .missing ∧ w.homeCell = none)
        ∧ (∃ columns, { source := .volumeMissing, drive := none, columns := columns, tag := none,
                        volume := some serial } ∈ l.notes.raised)
        ∧ (l.drive d).state = .offline ∧ (l.drive d).reel = .none ∧ (l.drive d).serving = none
        ∧ (l.drive d).offPending = false ∧ (∀ e, e ≠ d → l.drive e = s.found.drive e)
        ∧ (a.manual < 65535 →
            l.account? account = some { a with manual := a.manual + 1, stamp := (a.stamp + 1) % 65536 }))) ∧
 (∀ s : State, s.live → s.lib.shape = specShape →
    (∀ n k p, s.found.posted? n = some (k, p) → p.reannounceLeft = some 0 → s.found.prompts.presented = some n →
      let q : Prompt := { p with reannounceLeft := some s.set.timers.reannounce, announced := true }
      exec (.reAnnounceExpiry n) s = .next { s with lib := { s.found with
        prompts := { s.found.prompts with
          slots := s.found.prompts.slots.set k (some q), presented := some p.posting
          lastSent := some ⟨q, true⟩ }
        out := s.found.out ++ [.present ⟨q, true⟩] } })
    ∧ (s.found.prompts.lastSent = none →
      exec .hello s = .next { s with lib := { s.found with out := s.found.out ++ [.blank] } })
    ∧ (∀ x, s.found.prompts.lastSent = some x →
      exec .hello s = .next { s with lib := { s.found with
        prompts := { s.found.prompts with lastSent := some { x with alert := false } }
        out := s.found.out ++ [.present { x with alert := false }] } }))

/-! ## Requests -/

/-- Mount of a volume that is HOME, and Mount Scratch: the request is QUEUED in READY with the next queue
sequence, HELD in STARTING before the start limit, and holds its volume. -/
def Obligations.MountsAdmitted : Prop :=
  ∀ (a : Account) (v : Volume) (s : State), s.live →
    s.lib.start.state = .ready ∨ (s.lib.start.state = .starting ∧ ∃ n, s.lib.start.limit = .running n) →
    s.lib.hostFull = false → s.lib.account? a.number = some a → 1 ≤ a.number → a.number ≤ 9999 →
    a.suspended = false → s.lib.underQuota a = true →
    s.lib.vol? v.serial = some v → v.holder = none → v.state = .home →
    let listed (r : Request) : Prop :=
      r.state = (if s.lib.start.state = .ready then .queued else .held)
      ∧ r.qseq = (if s.lib.start.state = .ready then some (satAdd max32 s.lib.reqs.queueSeq 1) else none)
    let served (path density : Nat) : Prop :=
      ∃ w ∈ s.lib.drives, ∃ x, w.defn = some x ∧ path ∈ x.paths ∧ density ∈ x.densities ∧ x.kind ≠ .manual
    (∀ f : MountBlock, f.serial = v.serial → f.account = a.number → 1 ≤ f.tag → f.tag ≤ 32767 →
      s.lib.req? f.tag = none → mountFieldsOk f = true → (∀ u, v.cls ≠ .cleaner u) →
      f.access = 1 ∨ v.ring = true → served f.path v.density →
      s.admits (.mount f) f.tag (some v.serial) fun r =>
        r.kind = .mount ∧ r.cargo = .volume v.serial ∧ r.path = some f.path ∧ r.density = some v.density
        ∧ r.account = some a.number ∧ r.priority = f.priority
        ∧ r.access = some (if f.access = 2 then .write else .read)
        ∧ r.manualAllowed = some (decide (f.manualAllowed = 1)) ∧ r.route = some .library
        ∧ r.source = v.homeCell.map Place.cell ∧ listed r)
    ∧ (∀ f : ScratchBlock, f.account = a.number → 1 ≤ f.tag → f.tag ≤ 32767 → s.lib.req? f.tag = none →
      scratchFieldsOk f = true → served f.path f.density → s.lib.scratchOf f.density = some v →
      s.admits (.mountScratch f) f.tag (some v.serial) fun r =>
        r.kind = .mountScratch ∧ r.cargo = .volume v.serial ∧ r.path = some f.path
        ∧ r.density = some f.density ∧ r.account = some a.number ∧ r.priority = f.priority
        ∧ r.access = some .write ∧ r.route = some .library ∧ r.expiryDays = some f.expiryDays
        ∧ r.source = v.homeCell.map Place.cell ∧ listed r)

/-- Mount of a volume on the shelf that may be served by a MANUAL drive: in READY the request is MANUAL; where
the drives cannot serve it, or manual is not allowed, it is refused. -/
def Obligations.ShelfMountRouted : Prop :=
  ∀ (f : MountBlock) (a : Account) (v : Volume) (s : State), s.live → s.lib.start.state = .ready →
    s.lib.hostFull = false → s.lib.account? f.account = some a → a.suspended = false →
    s.lib.underQuota a = true → 1 ≤ f.tag → f.tag ≤ 32767 → s.lib.req? f.tag = none →
    mountFieldsOk f = true → s.lib.vol? f.serial = some v → v.holder = none → v.state = .shelf →
    (∀ u, v.cls ≠ .cleaner u) → f.access = 1 ∨ v.ring = true →
    let served : Prop :=
      ∃ w ∈ s.lib.drives, ∃ x, w.defn = some x ∧ f.path ∈ x.paths ∧ v.density ∈ x.densities
    (f.manualAllowed = 1 → served →
      ∃ (l : Lib) (r : Request), exec (.mount f) s = .next (s.after s.set (l.settle s.set) (.good []))
        ∧ l.req? f.tag = some r ∧ r.state = .manual ∧ r.cargo = .volume f.serial
        ∧ (r.route = some .manualDrive ∨ r.route = some .station))
    ∧ (f.manualAllowed = 0 →
      exec (.mount f) s = .next (s.after s.set s.lib.begin (.check .volumeState (.serial f.serial))))
    ∧ (f.manualAllowed = 1 → ¬served →
      exec (.mount f) s = .next (s.after s.set s.lib.begin (.check .noEligibleDrive (.tag f.tag))))

/-- Eject, Audit and Clean Drive: the request is QUEUED in READY with the next queue sequence; an Audit of
priority FFh stands at level 3; a Clean Drive holds the cleaner R13 chooses. The dispatcher then runs (R95 to R98):
with the interlock flag set it stages nothing; with both accessors IDLE and no other request, an Audit goes to the
accessor that reaches its first column and is nearer to it, A when both are as near, and becomes its current order at
once; a Mount from a cell goes to the eligible drive with the earliest idle-since, which is RESERVED for it. -/
def Obligations.WorkAdmitted : Prop :=
  ∀ (tag : Nat) (s : State), s.live → s.lib.start.state = .ready → s.lib.hostFull = false →
    1 ≤ tag → tag ≤ 32767 → s.lib.req? tag = none →
    let listed (r : Request) : Prop :=
      r.state = .queued ∧ r.qseq = some (satAdd max32 s.lib.reqs.queueSeq 1)
    (∀ serial v priority, serial.valid = true → priority ≤ 3 → s.lib.vol? serial = some v → v.holder = none →
      v.state = .home →
      s.admits (.eject tag serial priority) tag (some serial) fun r =>
        r.kind = .eject ∧ r.cargo = .volume serial ∧ r.priority = priority
        ∧ r.source = v.homeCell.map Place.cell ∧ listed r)
    ∧ (∀ first last priority, first ≤ last → last < s.lib.columns → priority ≤ 3 ∨ priority = 255 →
      s.admits (.audit tag first last priority) tag none fun r =>
        r.kind = .audit ∧ r.cursor = some { next := first, first := first, last := last }
        ∧ r.priority = (if priority = 255 then 3 else priority) ∧ listed r)
    ∧ (∀ d priority v, d < 16 → priority ≤ 3 → s.lib.isAutomated d = true → s.lib.cleanNames d = false →
      s.lib.chooseCleaner = some v → s.lib.vol? v.serial = some v →
      ∃ (l : Lib) (r : Request), exec (.cleanDrive tag d priority) s
          = .next (s.after s.set (l.settle s.set) (.good []))
        ∧ l.req? tag = some r ∧ r.kind = .clean ∧ r.drive = some d ∧ r.cargo = .volume v.serial ∧ listed r
        ∧ (l.vol? v.serial).bind Volume.holder = some tag ∧ l.drives = s.lib.drives ∧ l.rail = s.lib.rail)
    ∧ (∀ first last, s.lib.rail.interlock = true → first ≤ last → last < s.lib.columns →
      ∃ (t : State) (r : Request), exec (.audit tag first last 255) s = .next t
        ∧ t.lib.req? tag = some r ∧ r.state = .queued ∧ t.lib.rail = s.lib.rail ∧ t.lib.out = [])
    ∧ (s.lib.reqs.live = [] → s.lib.rail.interlock = false →
      (∀ y, (s.lib.acc y).state = .idle ∧ (s.lib.acc y).current = none ∧ (s.lib.acc y).staged = none) →
      let next (x : AccId) : Nat := if (s.lib.acc x).counter < 255 then (s.lib.acc x).counter + 1 else 1
      let goes (c : Instr) (x : AccId) (k : OrderKind) (body : OrderBody) (P : State → Request → Prop) : Prop :=
        ∃ (t : State) (r : Request), exec c s = .next t ∧ t.lib.req? tag = some r ∧ P t r
          ∧ (t.lib.acc x).state = .moving ∧ (t.lib.acc x).timer = some s.set.timers.step
          ∧ (t.lib.acc x).current = some
              { kind := k, number := some (next x), serves := some tag, progress := .notPicked, newHome := false }
          ∧ Msg.order x (next x) body ∈ t.lib.out
      let far (x : AccId) (column : Nat) : Nat := Lib.distance (s.lib.acc x).pos column
      (∀ x first last, first ≤ last → last < s.lib.columns → s.lib.inReach x first = true →
        (s.lib.inReach (other x) first = true → match x with
          | .a => far .a first ≤ far .b first
          | .b => far .b first < far .a first) →
        s.lib.fits x ⟨min (s.lib.acc x).pos first, max (s.lib.acc x).pos first⟩ = true →
        goes (.audit tag first last 255) x (.scan first) (.scan first) fun _ r => r.state = .moving)
      ∧ ∀ (f : MountBlock) (a : Account) (v : Volume) (owner expiry d n column : Nat), f.tag = tag →
        mountFieldsOk f = true → s.lib.account? f.account = some a → a.suspended = false →
        s.lib.underQuota a = true → 0 < a.limit → s.lib.vol? f.serial = some v → v.holder = none →
        v.cls = .priv owner expiry → f.serial ∉ s.lib.cat.scratch → v.state = .home → v.homeCell = some n →
        f.access = 1 ∨ v.ring = true → s.set.paths.getD f.path false = true →
        let could (e : Nat) : Prop := e < 16 ∧ (s.lib.drive e).state = .idle ∧ (s.lib.drive e).cleanDue = false
          ∧ (s.lib.drive e).offPending = false ∧ ∃ y c, (s.lib.drive e).defn = some y ∧ y.kind = .automated c
          ∧ y.confirmed = true ∧ f.path ∈ y.paths ∧ v.density ∈ y.densities ∧ s.lib.inReach .a c = true
        could d → (∀ e, could e → e ≠ d → s.lib.idleKey d < s.lib.idleKey e) → s.lib.driveCol d = some column →
        s.lib.drives.length = 16 → s.lib.inReach .a (s.lib.cellCol n) = true →
        (s.lib.inReach .b (s.lib.cellCol n) = true → far .a (s.lib.cellCol n) ≤ far .b (s.lib.cellCol n)) →
        s.lib.fits .a ⟨min (min (s.lib.acc .a).pos (s.lib.cellCol n)) column,
          max (max (s.lib.acc .a).pos (s.lib.cellCol n)) column⟩ = true →
        goes (.mount f) .a (.transfer (.cell n) (some (.drive d)))
          (.transfer (.cell n) (.drive d) (some f.serial)) fun t r =>
            r.state = .fetching ∧ r.drive = some d ∧ (t.lib.drive d).state = .reserved .current
            ∧ (t.lib.drive d).serving = some tag)

/-- Cancel of a request of the host: in HELD or QUEUED it ends DONE, CANCELLED, and its volume has no holder;
with its order current a mount in FETCHING or an audit in MOVING is marked cancel-pending; a DONE request is refused,
and so is a tag not in use. Release Request frees the entry of a DONE host request, and refuses one that is not DONE;
Dismount of a MOUNTED mount sends UNLOAD and puts the request and its drive into REWINDING with the unload limit
started. -/
def Obligations.CancelReleaseDismount : Prop :=
 (∀ (tag : Nat) (s : State), s.live → s.serving → 1 ≤ tag → tag ≤ 32767 →
    (∀ r, s.lib.req? tag = some r → r.origin = .link → r.cancelPending = false →
      (r.state = .held ∨ r.state = .queued → s.lib.handOverOf tag = none →
        ∃ (l : Lib) (q : Request), exec (.cancel tag) s = .next (s.after s.set (l.settle s.set) (.good []))
          ∧ l.req? tag = some q ∧ q.state = .done ∧ q.code = some (r.code.getD .cancelled)
          ∧ l.att.causes.getLsbD 0 = true
          ∧ ∀ serial v, r.cargo = .volume serial → s.lib.vol? serial = some v → v.holder = some tag →
              (l.vol? serial).bind Volume.holder = none)
      ∧ ((r.state = .fetching ∧ r.isMount = true) ∨ (r.state = .moving ∧ r.kind = .audit) →
        s.lib.stagedFor? tag = none →
        exec (.cancel tag) s = .next (s.after s.set { s.lib.begin with reqs := { s.lib.reqs with
          live := s.lib.reqs.live.map fun q => if q.tag = tag then
            { q with cancelPending := true, code := some (q.code.getD .cancelled) } else q } } (.good [])))
      ∧ (r.state = .done →
        exec (.cancel tag) s = .next (s.after s.set s.lib.begin (.check .requestState (.tag tag)))))
    ∧ (s.lib.req? tag = none →
      exec (.cancel tag) s = .next (s.after s.set s.lib.begin (.check .tagUnknown (.tag tag))))) ∧
 (∀ (tag : Nat) (r : Request) (s : State), s.live → s.serving → 1 ≤ tag → tag ≤ 32767 →
    s.lib.req? tag = some r →
    (r.state = .done →
      ∃ l : Lib, exec (.releaseRequest tag) s = .next (s.after s.set (l.settle s.set) (.good []))
        ∧ l = { s.lib.begin with reqs := { s.lib.reqs with live := l.reqs.live }, notes := l.notes }
        ∧ l.notes.entryFreed = true ∧ l.req? tag = none ∧ ∀ t, t ≠ tag → l.req? t = s.lib.req? t)
    ∧ (r.state ≠ .done →
      exec (.releaseRequest tag) s = .next (s.after s.set s.lib.begin (.check .requestState (.tag tag))))
    ∧ (∀ d, r.isMount = true → r.state = .mounted → r.drive = some d → d < 16 → s.lib.shape = specShape →
      ∃ (l : Lib) (q : Request), exec (.dismount tag) s = .next (s.after s.set (l.settle s.set) (.good []))
        ∧ l.req? tag = some q ∧ q.state = .rewinding ∧ q.accruedFrom = none
        ∧ (l.drive d).state = .rewinding ∧ (l.drive d).unloadLeft = some s.set.timers.unload
        ∧ l.out = [.unload d] ∧ (∀ e, e ≠ d → l.drive e = s.lib.drive e) ∧ l.cat = s.lib.cat)
    ∧ (r.isMount = true → r.state ≠ .mounted →
      exec (.dismount tag) s = .next (s.after s.set s.lib.begin (.check .requestState (.tag tag)))))

/-- QUEUE_STALL_EXPIRY: QUEUE-STALL is raised and the timer stops; an AUDIT whose next column no accessor can
reach ends DONE, NO-DESTINATION; a mount keeps its state. -/
def Obligations.QueueStallRaised : Prop :=
  ∀ (tag : Nat) (r : Request) (s : State), s.live → s.found.req? tag = some r → r.stallLeft = some 0 →
    (r.isMount = true →
      exec (.queueStallExpiry tag) s = .next (s.settled { s.found with
        reqs := { s.found.reqs with
          live := s.found.reqs.live.map fun q => if q.tag = tag then { q with stallLeft := none } else q }
        notes := { s.found.notes with raised := s.found.notes.raised
          ++ [{ source := .queueStall, drive := none, columns := none, tag := some tag }] } }))
    ∧ (∀ c, r.kind = .audit → r.origin = .link → r.state = .queued → r.code = none → r.cursor = some c →
      s.found.inReach .a c.next = false → s.found.inReach .b c.next = false →
      ∃ (l : Lib) (q : Request), exec (.queueStallExpiry tag) s = .next (s.settled l)
        ∧ l.req? tag = some q ∧ q.state = .done ∧ q.code = some .noDestination
        ∧ { source := .queueStall, drive := none, columns := none, tag := some tag } ∈ l.notes.raised)

/-! ## The accessors -/

/-- Restore Accessor sends a GRIPPER-QUERY with the next number to a FAULTED accessor; Resume Library clears the
interlock flag and queries each HALTED accessor; each refusal changes nothing: of an accessor number above 1, of an
accessor that is not FAULTED or has a query outstanding, with the service door OPEN, with no interlock. The record
returned is laid out as the model chose (log 11). -/
def Obligations.RestoreAndResume : Prop :=
  ∀ s : State, s.live →
    (∀ n, s.serving → n ≤ 1 → s.lib.isFaulted (accOf n) = true → (s.lib.acc (accOf n)).query = none →
      ∃ (l : Lib) (num : Nat), exec (.restoreAccessor n) s
          = .next (s.after s.set l (.good (accessorFields (l.acc (accOf n)))))
        ∧ num = (if (s.lib.acc (accOf n)).counter < 255 then (s.lib.acc (accOf n)).counter + 1 else 1)
        ∧ l = { s.lib.begin with rail := l.rail, out := [.gripperQuery (accOf n) num] }
        ∧ l.acc (accOf n) = { s.lib.acc (accOf n) with
            counter := num, query := some ⟨num, .restore⟩, timer := some s.set.timers.step }
        ∧ l.acc (other (accOf n)) = s.lib.acc (other (accOf n)))
    ∧ (∀ n, s.serving → 1 < n →
      exec (.restoreAccessor n) s = .next (s.after s.set s.lib.begin (.check .invalidField .none)))
    ∧ (∀ n, s.serving → n ≤ 1 → s.lib.isFaulted (accOf n) = false ∨ (s.lib.acc (accOf n)).query ≠ none →
      exec (.restoreAccessor n) s
        = .next (s.after s.set s.lib.begin (.check .accessorState (.accessor n))))
    ∧ (s.lib.rail.serviceOpen = false → s.lib.rail.interlock = true →
      ∃ l : Lib, exec .resumeLibrary s = .next (s.after s.set (l.settle s.set) (.good []))
        ∧ l = { s.lib.begin with rail := l.rail, out := l.out, notes := l.notes }
        ∧ l.rail.interlock = false
        ∧ ∀ x, (s.lib.acc x).state = .halted → (s.lib.acc x).query = none →
            ∃ num, (l.acc x).query = some ⟨num, .resume⟩ ∧ Msg.gripperQuery x num ∈ l.out)
    ∧ (s.lib.rail.serviceOpen = true →
      exec .resumeLibrary s = .next (s.after s.set s.lib.begin (.check .doorOpen .none)))
    ∧ (s.lib.rail.serviceOpen = false → s.lib.rail.interlock = false →
      exec .resumeLibrary s = .next (s.after s.set s.lib.begin (.check .requestState .none)))

/-- PICKED and PICK_EMPTY at a cell, for the order in hand: a matching label puts the volume in transit and
keeps its cell AWAITED; another label, or no reel, makes the volume MISSING, ends the request VOLUME-MISSING,
and then the order ends. A report of another order number changes nothing. -/
def Obligations.PickReportsAtCell : Prop :=
  ∀ (x : AccId) (num cell tag : Nat) (dest : Option Place) (serial : Serial) (o : Order) (r : Request) (v : Volume)
    (s : State), s.live →
    (s.found.acc x).current = some o → o.number = some num → o.kind = .transfer (.cell cell) dest →
    o.progress = .notPicked → o.serves = some tag → s.found.req? tag = some r → r.cargo = .volume serial →
    r.origin = .link → r.code = none → r.state ≠ .done → s.found.vol? serial = some v → serial.valid = true →
    v.state = .home → v.homeCell = some cell → s.found.cell cell = .filled serial →
    (∃ l : Lib, exec (.picked x num (.cell cell) (some serial)) s = .next (s.settled l)
      ∧ (∃ w, l.vol? serial = some w ∧ w.state = .inTransit x ∧ w.homeCell = some cell)
      ∧ l.cell cell = .awaited serial ∧ (l.acc x).current = some { o with progress := .picked }
      ∧ (l.acc x).pos = s.found.cellCol cell ∧ l.drives = s.found.drives ∧ l.reqs = s.found.reqs)
    ∧ (∀ label, normLabel label ≠ some serial →
      ∃ (l : Lib) (q : Request), exec (.picked x num (.cell cell) label) s
          = .next (s.settled (l.endOrder s.set x))
        ∧ (∃ w, l.vol? serial = some w ∧ w.state = .missing ∧ w.homeCell = none)
        ∧ l.cell cell = .foreign ∧ l.req? tag = some q ∧ q.state = .done ∧ q.code = some .volumeMissing)
    ∧ (∃ (l : Lib) (q : Request), exec (.pickEmpty x num (.cell cell)) s
          = .next (s.settled (l.endOrder s.set x))
        ∧ (∃ w, l.vol? serial = some w ∧ w.state = .missing ∧ w.homeCell = none)
        ∧ l.cell cell = .empty none ∧ l.req? tag = some q ∧ q.state = .done ∧ q.code = some .volumeMissing)
    ∧ (∀ n label, n ≠ num →
      exec (.picked x n (.cell cell) label) s = .next { s with lib := s.found }
      ∧ exec (.pickEmpty x n (.cell cell)) s = .next { s with lib := s.found })

/-- PLACED at a drive starts the threading limit, with the volume ON-DRIVE and the drive and its request
THREADING; PLACED at a cell puts the volume HOME there and ends its request OK; PLACE_BLOCKED at a cell makes it
FOREIGN and looks for another place; PLACE_BLOCKED at a drive makes the drive FAULTED and empty with DRIVE-FAULT
raised, fixes the request's code, and looks for a place as for a return. That a mount's drive field then goes is the
model's choice (log 41), and so is, in the two blocked cases, that the timer stops where the order is the frozen one of
a HALTED accessor with a resume query outstanding (log 53). -/
def Obligations.PlaceReports : Prop :=
  ∀ (x : AccId) (num tag : Nat) (source : Place) (dest : Place) (serial : Serial) (o : Order) (r : Request)
    (v : Volume) (s : State), s.live → s.lib.shape = specShape →
    (s.found.acc x).current = some o → o.number = some num → o.kind = .transfer source (some dest) →
    o.progress = .picked → o.serves = some tag → s.found.req? tag = some r → r.cargo = .volume serial →
    r.origin = .link → r.code = none → r.state ≠ .done → s.found.vol? serial = some v →
    (∀ d, dest = .drive d → d < 16 → r.isMount = true →
      ∃ (l : Lib) (q : Request), exec (.placed x num dest) s = .next (s.settled (l.endOrder s.set x))
        ∧ (l.drive d).state = .threading ∧ (l.drive d).threadLeft = some s.set.timers.threading
        ∧ (l.drive d).reel = .recorded serial ∧ l.req? tag = some q ∧ q.state = .threading
        ∧ (∃ w, l.vol? serial = some w ∧ w.state = .onDrive d)
        ∧ (∀ e, e ≠ d → l.drive e = s.found.drive e) ∧ l.place = s.found.place)
    ∧ (∀ c, dest = .cell c → c < s.found.place.cells.length →
      ∃ (l : Lib) (q : Request), exec (.placed x num dest) s = .next (s.settled (l.endOrder s.set x))
        ∧ l.cell c = .filled serial ∧ (∃ w, l.vol? serial = some w ∧ w.state = .home ∧ w.homeCell = some c)
        ∧ l.req? tag = some q ∧ q.state = .done ∧ q.code = some .ok)
    ∧ (∀ c, dest = .cell c → c < s.found.place.cells.length →
      ∃ l : Lib, exec (.placeBlocked x num dest) s = .next (s.settled (l.retargetOrHold s.set x))
        ∧ l.cell c = .foreign ∧ (l.acc x).current = some { o with progress := .blocked, asReturn := false }
        ∧ (l.acc x).timer = none ∧ (∃ w, l.vol? serial = some w ∧ w.homeCell = none)
        ∧ l.drives = s.found.drives)
    ∧ (∀ d, dest = .drive d → d < 16 →
      ∃ (l : Lib) (q : Request), exec (.placeBlocked x num dest) s
          = .next (s.settled (l.retargetOrHold s.set x))
        ∧ (l.drive d).state = .faulted ∧ (l.drive d).fault = 0 ∧ (l.drive d).reel = .none
        ∧ (l.drive d).serving = none ∧ (∀ e, e ≠ d → l.drive e = s.found.drive e)
        ∧ { source := .driveFault, drive := some d, columns := none, tag := none } ∈ l.notes.raised
        ∧ (l.acc x).current = some { o with progress := .blocked, asReturn := true } ∧ (l.acc x).timer = none
        ∧ l.req? tag = some q ∧ q.state = .returning ∧ q.code = some .driveFault
        ∧ q.drive = (if r.kind = .clean then r.drive else none) ∧ l.cat = s.found.cat ∧ l.place = s.found.place)

/-- CELL_SEEN, SCAN_DONE and MOVE_DONE for the order in hand: a FILLED cell seen empty loses its volume, a cell
seen as recorded changes nothing but the position and the step timer; an audit goes on to its next column, or
ends OK; a yield ends at its column and a homing at the park column, and any other column makes the report stale. -/
def Obligations.ScanAndMoveReports : Prop :=
  ∀ (x : AccId) (num column : Nat) (o : Order) (s : State), s.live → column < s.found.columns →
    (s.found.acc x).current = some o → o.number = some num →
    (∀ cell serial v, o.kind = .scan column → cell < s.found.place.cells.length →
      s.found.cellCol cell = column → s.found.cell cell = .filled serial → serial.valid = true →
      s.found.vol? serial = some v → v.state = .home → v.homeCell = some cell → v.holder = none →
      (∃ l : Lib, exec (.cellSeen x num cell column .empty) s = .next (s.settled l)
        ∧ l.cell cell = .empty none ∧ (∃ w, l.vol? serial = some w ∧ w.state = .missing ∧ w.homeCell = none)
        ∧ l.reqs = s.found.reqs ∧ l.drives = s.found.drives)
      ∧ exec (.cellSeen x num cell column (.filled (some serial))) s
          = .next { s with lib := s.found.updAcc x fun a =>
              { a with pos := column, timer := if a.state = .moving then some s.set.timers.step else a.timer } })
    ∧ (∀ tag r c, o.kind = .scan column → o.serves = some tag → s.found.req? tag = some r → r.cursor = some c →
      r.origin = .link → r.code = none → r.state = .moving → r.cancelPending = false →
      ∃ (l : Lib) (q : Request), exec (.scanDone x num column) s = .next (s.settled (l.endOrder s.set x))
        ∧ l.req? tag = some q ∧ q.cursor = some { c with next := c.next + 1 }
        ∧ (c.next + 1 ≤ c.last → q.state = .queued) ∧ (c.last < c.next + 1 → q.state = .done ∧ q.code = some .ok)
        ∧ (l.acc x).pos = column)
    ∧ (∀ c, o.kind = .yield c → c ≠ column → exec (.moveDone x num column) s = .next { s with lib := s.found })
    ∧ (o.kind = .home → column ≠ s.found.park x →
      exec (.moveDone x num column) s = .next { s with lib := s.found })
    ∧ (o.kind = .yield column →
      exec (.moveDone x num column) s
        = .next (s.settled ((s.found.updAcc x fun a => { a with pos := column }).endOrder s.set x)))
    ∧ (o.kind = .home → column = s.found.park x →
      exec (.moveDone x num column) s
        = .next (s.settled
            ((s.found.updAcc x fun a => { a with pos := column, homing := .ended }).endOrder s.set x)))

/-- ACCESSOR_FAULT_REPORT and the step limit: the accessor is FAULTED with the cause and the column, has no
order, and ACCESSOR-FAULT is raised; GRIPPER in answer to Restore Accessor, with the gripper empty and no reel
looked for in it: the accessor is IDLE at the column reported. -/
def Obligations.FaultAndRestoreReply : Prop :=
  ∀ (x : AccId) (s : State), s.live →
    let faults (c : Instr) (why : FaultCause) (column : Nat) : Prop :=
      ∃ l : Lib, exec c s = .next (s.settled
          (((l.dropUnreachable s.set (other x)).orderJoined s.found.cat.scratch).wake))
        ∧ (l.acc x).state = .faulted why column ∧ (l.acc x).current = none ∧ (l.acc x).staged = none
        ∧ (l.acc x).span = ⟨column, column⟩ ∧ (l.acc x).timer = none ∧ (l.acc x).query = none
        ∧ { source := .accessorFault, drive := none, columns := some ⟨column, column⟩, tag := none,
             accessor := some x } ∈ l.notes.raised
    (∀ n column code, s.found.isFaulted x = false → column < s.found.columns → 1 ≤ code → code ≤ 255 →
      faults (.accessorFaultReport x n column code) (.reported code) column)
    ∧ (s.found.isFaulted x = false → (s.found.acc x).timer = some 0 →
      faults (.stepLimitExpiry x) .timeout
        (match x with
          | .a => (s.found.acc x).span.hi
          | .b => (s.found.acc x).span.lo))
    ∧ (∀ n column, column < s.found.columns → (s.found.acc x).query = some ⟨n, .restore⟩ →
      s.found.isFaulted x = true → s.found.rail.interlock = false → s.found.volInTransit? x = none →
      s.found.gripperReturn? x = none →
      ∃ l : Lib, exec (.gripper x n column .empty) s
          = .next (s.settled ((l.contend s.set (other x)).wake))
        ∧ (l.acc x).state = .idle ∧ (l.acc x).pos = column ∧ (l.acc x).span = ⟨column, column⟩
        ∧ (l.acc x).query = none ∧ (l.acc x).frozen = false ∧ l.cat = s.found.cat ∧ l.drives = s.found.drives)
    ∧ (∀ n column held, (∀ q, (s.found.acc x).query = some q → q.number ≠ n) →
      exec (.gripper x n column held) s = .next { s with lib := s.found })
end

