-- ==== Sys2Proof/Laws/State.lean ====
section
/-! SUPPORT. What each basic update leaves in each field: one lemma per field, true by definition, so that no
proof unfolds a record update. -/

namespace Sys2Proof.Machine

variable (l : Lib)

/-! ## begin -/

@[simp] theorem Lib.begin_store : (l.begin).store = l.store := rfl
@[simp] theorem Lib.begin_cat : (l.begin).cat = l.cat := rfl
@[simp] theorem Lib.begin_place : (l.begin).place = l.place := rfl
@[simp] theorem Lib.begin_drives : (l.begin).drives = l.drives := rfl
@[simp] theorem Lib.begin_reqs : (l.begin).reqs = l.reqs := rfl
@[simp] theorem Lib.begin_rail : (l.begin).rail = l.rail := rfl
@[simp] theorem Lib.begin_prompts : (l.begin).prompts = l.prompts := rfl
@[simp] theorem Lib.begin_acct : (l.begin).acct = l.acct := rfl
@[simp] theorem Lib.begin_att : (l.begin).att = l.att := rfl
@[simp] theorem Lib.begin_start : (l.begin).start = l.start := rfl
@[simp] theorem Lib.begin_out : (l.begin).out = [] := rfl
@[simp] theorem Lib.begin_notes : (l.begin).notes = Notes.none := rfl

/-! ## send -/

@[simp] theorem Lib.send_store (m : Msg) : (l.send m).store = l.store := rfl
@[simp] theorem Lib.send_cat (m : Msg) : (l.send m).cat = l.cat := rfl
@[simp] theorem Lib.send_place (m : Msg) : (l.send m).place = l.place := rfl
@[simp] theorem Lib.send_drives (m : Msg) : (l.send m).drives = l.drives := rfl
@[simp] theorem Lib.send_reqs (m : Msg) : (l.send m).reqs = l.reqs := rfl
@[simp] theorem Lib.send_rail (m : Msg) : (l.send m).rail = l.rail := rfl
@[simp] theorem Lib.send_prompts (m : Msg) : (l.send m).prompts = l.prompts := rfl
@[simp] theorem Lib.send_acct (m : Msg) : (l.send m).acct = l.acct := rfl
@[simp] theorem Lib.send_att (m : Msg) : (l.send m).att = l.att := rfl
@[simp] theorem Lib.send_start (m : Msg) : (l.send m).start = l.start := rfl
@[simp] theorem Lib.send_out (m : Msg) : (l.send m).out = l.out ++ [m] := rfl
@[simp] theorem Lib.send_notes (m : Msg) : (l.send m).notes = l.notes := rfl

/-! ## raise -/

@[simp] theorem Lib.raise_store (r : Raising) : (l.raise r).store = l.store := rfl
@[simp] theorem Lib.raise_cat (r : Raising) : (l.raise r).cat = l.cat := rfl
@[simp] theorem Lib.raise_place (r : Raising) : (l.raise r).place = l.place := rfl
@[simp] theorem Lib.raise_drives (r : Raising) : (l.raise r).drives = l.drives := rfl
@[simp] theorem Lib.raise_reqs (r : Raising) : (l.raise r).reqs = l.reqs := rfl
@[simp] theorem Lib.raise_rail (r : Raising) : (l.raise r).rail = l.rail := rfl
@[simp] theorem Lib.raise_prompts (r : Raising) : (l.raise r).prompts = l.prompts := rfl
@[simp] theorem Lib.raise_acct (r : Raising) : (l.raise r).acct = l.acct := rfl
@[simp] theorem Lib.raise_att (r : Raising) : (l.raise r).att = l.att := rfl
@[simp] theorem Lib.raise_start (r : Raising) : (l.raise r).start = l.start := rfl
@[simp] theorem Lib.raise_out (r : Raising) : (l.raise r).out = l.out := rfl
@[simp] theorem Lib.raise_notes (r : Raising) :
    (l.raise r).notes = { l.notes with raised := l.notes.raised ++ [r] } := rfl

/-! ## wake -/

@[simp] theorem Lib.wake_store : (l.wake).store = l.store := rfl
@[simp] theorem Lib.wake_cat : (l.wake).cat = l.cat := rfl
@[simp] theorem Lib.wake_place : (l.wake).place = l.place := rfl
@[simp] theorem Lib.wake_drives : (l.wake).drives = l.drives := rfl
@[simp] theorem Lib.wake_reqs : (l.wake).reqs = l.reqs := rfl
@[simp] theorem Lib.wake_rail : (l.wake).rail = l.rail := rfl
@[simp] theorem Lib.wake_prompts : (l.wake).prompts = l.prompts := rfl
@[simp] theorem Lib.wake_acct : (l.wake).acct = l.acct := rfl
@[simp] theorem Lib.wake_att : (l.wake).att = l.att := rfl
@[simp] theorem Lib.wake_start : (l.wake).start = l.start := rfl
@[simp] theorem Lib.wake_out : (l.wake).out = l.out := rfl
@[simp] theorem Lib.wake_notes : (l.wake).notes = { l.notes with wake := true } := rfl

/-! ## notePlaceFreed -/

@[simp] theorem Lib.notePlaceFreed_store : (l.notePlaceFreed).store = l.store := rfl
@[simp] theorem Lib.notePlaceFreed_cat : (l.notePlaceFreed).cat = l.cat := rfl
@[simp] theorem Lib.notePlaceFreed_place : (l.notePlaceFreed).place = l.place := rfl
@[simp] theorem Lib.notePlaceFreed_drives : (l.notePlaceFreed).drives = l.drives := rfl
@[simp] theorem Lib.notePlaceFreed_reqs : (l.notePlaceFreed).reqs = l.reqs := rfl
@[simp] theorem Lib.notePlaceFreed_rail : (l.notePlaceFreed).rail = l.rail := rfl
@[simp] theorem Lib.notePlaceFreed_prompts : (l.notePlaceFreed).prompts = l.prompts := rfl
@[simp] theorem Lib.notePlaceFreed_acct : (l.notePlaceFreed).acct = l.acct := rfl
@[simp] theorem Lib.notePlaceFreed_att : (l.notePlaceFreed).att = l.att := rfl
@[simp] theorem Lib.notePlaceFreed_start : (l.notePlaceFreed).start = l.start := rfl
@[simp] theorem Lib.notePlaceFreed_out : (l.notePlaceFreed).out = l.out := rfl
@[simp] theorem Lib.notePlaceFreed_notes :
    (l.notePlaceFreed).notes = { l.notes with wake := true, placeFreed := true } := rfl

/-! ## noteEntryFreed -/

@[simp] theorem Lib.noteEntryFreed_store : (l.noteEntryFreed).store = l.store := rfl
@[simp] theorem Lib.noteEntryFreed_cat : (l.noteEntryFreed).cat = l.cat := rfl
@[simp] theorem Lib.noteEntryFreed_place : (l.noteEntryFreed).place = l.place := rfl
@[simp] theorem Lib.noteEntryFreed_drives : (l.noteEntryFreed).drives = l.drives := rfl
@[simp] theorem Lib.noteEntryFreed_reqs : (l.noteEntryFreed).reqs = l.reqs := rfl
@[simp] theorem Lib.noteEntryFreed_rail : (l.noteEntryFreed).rail = l.rail := rfl
@[simp] theorem Lib.noteEntryFreed_prompts : (l.noteEntryFreed).prompts = l.prompts := rfl
@[simp] theorem Lib.noteEntryFreed_acct : (l.noteEntryFreed).acct = l.acct := rfl
@[simp] theorem Lib.noteEntryFreed_att : (l.noteEntryFreed).att = l.att := rfl
@[simp] theorem Lib.noteEntryFreed_start : (l.noteEntryFreed).start = l.start := rfl
@[simp] theorem Lib.noteEntryFreed_out : (l.noteEntryFreed).out = l.out := rfl
@[simp] theorem Lib.noteEntryFreed_notes : (l.noteEntryFreed).notes = { l.notes with entryFreed := true } := rfl

/-! ## noteOffer -/

@[simp] theorem Lib.noteOffer_store (d : Nat) : (l.noteOffer d).store = l.store := rfl
@[simp] theorem Lib.noteOffer_cat (d : Nat) : (l.noteOffer d).cat = l.cat := rfl
@[simp] theorem Lib.noteOffer_place (d : Nat) : (l.noteOffer d).place = l.place := rfl
@[simp] theorem Lib.noteOffer_drives (d : Nat) : (l.noteOffer d).drives = l.drives := rfl
@[simp] theorem Lib.noteOffer_reqs (d : Nat) : (l.noteOffer d).reqs = l.reqs := rfl
@[simp] theorem Lib.noteOffer_rail (d : Nat) : (l.noteOffer d).rail = l.rail := rfl
@[simp] theorem Lib.noteOffer_prompts (d : Nat) : (l.noteOffer d).prompts = l.prompts := rfl
@[simp] theorem Lib.noteOffer_acct (d : Nat) : (l.noteOffer d).acct = l.acct := rfl
@[simp] theorem Lib.noteOffer_att (d : Nat) : (l.noteOffer d).att = l.att := rfl
@[simp] theorem Lib.noteOffer_start (d : Nat) : (l.noteOffer d).start = l.start := rfl
@[simp] theorem Lib.noteOffer_out (d : Nat) : (l.noteOffer d).out = l.out := rfl
@[simp] theorem Lib.noteOffer_notes (d : Nat) :
    (l.noteOffer d).notes = { l.notes with offers := l.notes.offers ++ [d] } := rfl

/-! ## updVol -/

@[simp] theorem Lib.updVol_store (s : Serial) (f : Volume → Volume) : (l.updVol s f).store = l.store := rfl
@[simp] theorem Lib.updVol_cat (s : Serial) (f : Volume → Volume) :
    (l.updVol s f).cat = { l.cat with vols := l.cat.vols.map fun v => if v.serial = s then f v else v } := rfl
@[simp] theorem Lib.updVol_place (s : Serial) (f : Volume → Volume) : (l.updVol s f).place = l.place := rfl
@[simp] theorem Lib.updVol_drives (s : Serial) (f : Volume → Volume) : (l.updVol s f).drives = l.drives := rfl
@[simp] theorem Lib.updVol_reqs (s : Serial) (f : Volume → Volume) : (l.updVol s f).reqs = l.reqs := rfl
@[simp] theorem Lib.updVol_rail (s : Serial) (f : Volume → Volume) : (l.updVol s f).rail = l.rail := rfl
@[simp] theorem Lib.updVol_prompts (s : Serial) (f : Volume → Volume) : (l.updVol s f).prompts = l.prompts := rfl
@[simp] theorem Lib.updVol_acct (s : Serial) (f : Volume → Volume) : (l.updVol s f).acct = l.acct := rfl
@[simp] theorem Lib.updVol_att (s : Serial) (f : Volume → Volume) : (l.updVol s f).att = l.att := rfl
@[simp] theorem Lib.updVol_start (s : Serial) (f : Volume → Volume) : (l.updVol s f).start = l.start := rfl
@[simp] theorem Lib.updVol_out (s : Serial) (f : Volume → Volume) : (l.updVol s f).out = l.out := rfl
@[simp] theorem Lib.updVol_notes (s : Serial) (f : Volume → Volume) : (l.updVol s f).notes = l.notes := rfl

/-! ## addVol -/

@[simp] theorem Lib.addVol_store (v : Volume) : (l.addVol v).store = l.store := rfl
@[simp] theorem Lib.addVol_cat (v : Volume) :
    (l.addVol v).cat = { l.cat with vols := insertBy (fun x y => x.serial.lt y.serial) v l.cat.vols } := rfl
@[simp] theorem Lib.addVol_place (v : Volume) : (l.addVol v).place = l.place := rfl
@[simp] theorem Lib.addVol_drives (v : Volume) : (l.addVol v).drives = l.drives := rfl
@[simp] theorem Lib.addVol_reqs (v : Volume) : (l.addVol v).reqs = l.reqs := rfl
@[simp] theorem Lib.addVol_rail (v : Volume) : (l.addVol v).rail = l.rail := rfl
@[simp] theorem Lib.addVol_prompts (v : Volume) : (l.addVol v).prompts = l.prompts := rfl
@[simp] theorem Lib.addVol_acct (v : Volume) : (l.addVol v).acct = l.acct := rfl
@[simp] theorem Lib.addVol_att (v : Volume) : (l.addVol v).att = l.att := rfl
@[simp] theorem Lib.addVol_start (v : Volume) : (l.addVol v).start = l.start := rfl
@[simp] theorem Lib.addVol_out (v : Volume) : (l.addVol v).out = l.out := rfl
@[simp] theorem Lib.addVol_notes (v : Volume) : (l.addVol v).notes = l.notes := rfl

/-! ## dropVol -/

@[simp] theorem Lib.dropVol_store (s : Serial) : (l.dropVol s).store = l.store := rfl
@[simp] theorem Lib.dropVol_cat (s : Serial) :
    (l.dropVol s).cat = { l.cat with vols := l.cat.vols.filter fun v => v.serial ≠ s } := rfl
@[simp] theorem Lib.dropVol_place (s : Serial) : (l.dropVol s).place = l.place := rfl
@[simp] theorem Lib.dropVol_drives (s : Serial) : (l.dropVol s).drives = l.drives := rfl
@[simp] theorem Lib.dropVol_reqs (s : Serial) : (l.dropVol s).reqs = l.reqs := rfl
@[simp] theorem Lib.dropVol_rail (s : Serial) : (l.dropVol s).rail = l.rail := rfl
@[simp] theorem Lib.dropVol_prompts (s : Serial) : (l.dropVol s).prompts = l.prompts := rfl
@[simp] theorem Lib.dropVol_acct (s : Serial) : (l.dropVol s).acct = l.acct := rfl
@[simp] theorem Lib.dropVol_att (s : Serial) : (l.dropVol s).att = l.att := rfl
@[simp] theorem Lib.dropVol_start (s : Serial) : (l.dropVol s).start = l.start := rfl
@[simp] theorem Lib.dropVol_out (s : Serial) : (l.dropVol s).out = l.out := rfl
@[simp] theorem Lib.dropVol_notes (s : Serial) : (l.dropVol s).notes = l.notes := rfl

/-! ## updDrive -/

@[simp] theorem Lib.updDrive_store (d : Nat) (f : Drive → Drive) : (l.updDrive d f).store = l.store := rfl
@[simp] theorem Lib.updDrive_cat (d : Nat) (f : Drive → Drive) : (l.updDrive d f).cat = l.cat := rfl
@[simp] theorem Lib.updDrive_place (d : Nat) (f : Drive → Drive) : (l.updDrive d f).place = l.place := rfl
@[simp] theorem Lib.updDrive_drives (d : Nat) (f : Drive → Drive) :
    (l.updDrive d f).drives = l.drives.modify d f := rfl
@[simp] theorem Lib.updDrive_reqs (d : Nat) (f : Drive → Drive) : (l.updDrive d f).reqs = l.reqs := rfl
@[simp] theorem Lib.updDrive_rail (d : Nat) (f : Drive → Drive) : (l.updDrive d f).rail = l.rail := rfl
@[simp] theorem Lib.updDrive_prompts (d : Nat) (f : Drive → Drive) : (l.updDrive d f).prompts = l.prompts := rfl
@[simp] theorem Lib.updDrive_acct (d : Nat) (f : Drive → Drive) : (l.updDrive d f).acct = l.acct := rfl
@[simp] theorem Lib.updDrive_att (d : Nat) (f : Drive → Drive) : (l.updDrive d f).att = l.att := rfl
@[simp] theorem Lib.updDrive_start (d : Nat) (f : Drive → Drive) : (l.updDrive d f).start = l.start := rfl
@[simp] theorem Lib.updDrive_out (d : Nat) (f : Drive → Drive) : (l.updDrive d f).out = l.out := rfl
@[simp] theorem Lib.updDrive_notes (d : Nat) (f : Drive → Drive) : (l.updDrive d f).notes = l.notes := rfl

/-! ## updReq -/

@[simp] theorem Lib.updReq_store (t : Nat) (f : Request → Request) : (l.updReq t f).store = l.store := rfl
@[simp] theorem Lib.updReq_cat (t : Nat) (f : Request → Request) : (l.updReq t f).cat = l.cat := rfl
@[simp] theorem Lib.updReq_place (t : Nat) (f : Request → Request) : (l.updReq t f).place = l.place := rfl
@[simp] theorem Lib.updReq_drives (t : Nat) (f : Request → Request) : (l.updReq t f).drives = l.drives := rfl
@[simp] theorem Lib.updReq_reqs (t : Nat) (f : Request → Request) :
    (l.updReq t f).reqs = { l.reqs with live := l.reqs.live.map fun r => if r.tag = t then f r else r } := rfl
@[simp] theorem Lib.updReq_rail (t : Nat) (f : Request → Request) : (l.updReq t f).rail = l.rail := rfl
@[simp] theorem Lib.updReq_prompts (t : Nat) (f : Request → Request) : (l.updReq t f).prompts = l.prompts := rfl
@[simp] theorem Lib.updReq_acct (t : Nat) (f : Request → Request) : (l.updReq t f).acct = l.acct := rfl
@[simp] theorem Lib.updReq_att (t : Nat) (f : Request → Request) : (l.updReq t f).att = l.att := rfl
@[simp] theorem Lib.updReq_start (t : Nat) (f : Request → Request) : (l.updReq t f).start = l.start := rfl
@[simp] theorem Lib.updReq_out (t : Nat) (f : Request → Request) : (l.updReq t f).out = l.out := rfl
@[simp] theorem Lib.updReq_notes (t : Nat) (f : Request → Request) : (l.updReq t f).notes = l.notes := rfl

/-! ## updAcct -/

@[simp] theorem Lib.updAcct_store (n : Nat) (f : Account → Account) : (l.updAcct n f).store = l.store := rfl
@[simp] theorem Lib.updAcct_cat (n : Nat) (f : Account → Account) : (l.updAcct n f).cat = l.cat := rfl
@[simp] theorem Lib.updAcct_place (n : Nat) (f : Account → Account) : (l.updAcct n f).place = l.place := rfl
@[simp] theorem Lib.updAcct_drives (n : Nat) (f : Account → Account) : (l.updAcct n f).drives = l.drives := rfl
@[simp] theorem Lib.updAcct_reqs (n : Nat) (f : Account → Account) : (l.updAcct n f).reqs = l.reqs := rfl
@[simp] theorem Lib.updAcct_rail (n : Nat) (f : Account → Account) : (l.updAcct n f).rail = l.rail := rfl
@[simp] theorem Lib.updAcct_prompts (n : Nat) (f : Account → Account) : (l.updAcct n f).prompts = l.prompts := rfl
@[simp] theorem Lib.updAcct_acct (n : Nat) (f : Account → Account) :
    (l.updAcct n f).acct = { l.acct with accounts := l.acct.accounts.map fun a => if a.number = n then f a else a } := rfl
@[simp] theorem Lib.updAcct_att (n : Nat) (f : Account → Account) : (l.updAcct n f).att = l.att := rfl
@[simp] theorem Lib.updAcct_start (n : Nat) (f : Account → Account) : (l.updAcct n f).start = l.start := rfl
@[simp] theorem Lib.updAcct_out (n : Nat) (f : Account → Account) : (l.updAcct n f).out = l.out := rfl
@[simp] theorem Lib.updAcct_notes (n : Nat) (f : Account → Account) : (l.updAcct n f).notes = l.notes := rfl

/-! ## setCause -/

@[simp] theorem Lib.setCause_store (n : Nat) : (l.setCause n).store = l.store := rfl
@[simp] theorem Lib.setCause_cat (n : Nat) : (l.setCause n).cat = l.cat := rfl
@[simp] theorem Lib.setCause_place (n : Nat) : (l.setCause n).place = l.place := rfl
@[simp] theorem Lib.setCause_drives (n : Nat) : (l.setCause n).drives = l.drives := rfl
@[simp] theorem Lib.setCause_reqs (n : Nat) : (l.setCause n).reqs = l.reqs := rfl
@[simp] theorem Lib.setCause_rail (n : Nat) : (l.setCause n).rail = l.rail := rfl
@[simp] theorem Lib.setCause_prompts (n : Nat) : (l.setCause n).prompts = l.prompts := rfl
@[simp] theorem Lib.setCause_acct (n : Nat) : (l.setCause n).acct = l.acct := rfl
@[simp] theorem Lib.setCause_att (n : Nat) :
    (l.setCause n).att = { l.att with causes := l.att.causes ||| BitVec.ofNat 8 (2 ^ n) } := rfl
@[simp] theorem Lib.setCause_start (n : Nat) : (l.setCause n).start = l.start := rfl
@[simp] theorem Lib.setCause_out (n : Nat) : (l.setCause n).out = l.out := rfl
@[simp] theorem Lib.setCause_notes (n : Nat) : (l.setCause n).notes = l.notes := rfl

/-! ## addLinked -/

@[simp] theorem Lib.addLinked_store (s : Source) : (l.addLinked s).store = l.store := rfl
@[simp] theorem Lib.addLinked_cat (s : Source) : (l.addLinked s).cat = l.cat := rfl
@[simp] theorem Lib.addLinked_place (s : Source) : (l.addLinked s).place = l.place := rfl
@[simp] theorem Lib.addLinked_drives (s : Source) : (l.addLinked s).drives = l.drives := rfl
@[simp] theorem Lib.addLinked_reqs (s : Source) : (l.addLinked s).reqs = l.reqs := rfl
@[simp] theorem Lib.addLinked_rail (s : Source) : (l.addLinked s).rail = l.rail := rfl
@[simp] theorem Lib.addLinked_prompts (s : Source) : (l.addLinked s).prompts = l.prompts := rfl
@[simp] theorem Lib.addLinked_acct (s : Source) : (l.addLinked s).acct = l.acct := rfl
@[simp] theorem Lib.addLinked_att (s : Source) :
    (l.addLinked s).att = { l.att with linked := l.att.linked ||| BitVec.ofNat 16 (2 ^ (s.number - 1)) } := rfl
@[simp] theorem Lib.addLinked_start (s : Source) : (l.addLinked s).start = l.start := rfl
@[simp] theorem Lib.addLinked_out (s : Source) : (l.addLinked s).out = l.out := rfl
@[simp] theorem Lib.addLinked_notes (s : Source) : (l.addLinked s).notes = l.notes := rfl

/-! ## clearAttention -/

@[simp] theorem Lib.clearAttention_store : (l.clearAttention).store = l.store := rfl
@[simp] theorem Lib.clearAttention_cat : (l.clearAttention).cat = l.cat := rfl
@[simp] theorem Lib.clearAttention_place : (l.clearAttention).place = l.place := rfl
@[simp] theorem Lib.clearAttention_drives : (l.clearAttention).drives = l.drives := rfl
@[simp] theorem Lib.clearAttention_reqs : (l.clearAttention).reqs = l.reqs := rfl
@[simp] theorem Lib.clearAttention_rail : (l.clearAttention).rail = l.rail := rfl
@[simp] theorem Lib.clearAttention_prompts : (l.clearAttention).prompts = l.prompts := rfl
@[simp] theorem Lib.clearAttention_acct : (l.clearAttention).acct = l.acct := rfl
@[simp] theorem Lib.clearAttention_att : (l.clearAttention).att = { causes := 0, linked := 0 } := rfl
@[simp] theorem Lib.clearAttention_start : (l.clearAttention).start = l.start := rfl
@[simp] theorem Lib.clearAttention_out : (l.clearAttention).out = l.out := rfl
@[simp] theorem Lib.clearAttention_notes : (l.clearAttention).notes = l.notes := rfl

/-! ## setPrompt -/

@[simp] theorem Lib.setPrompt_store (k : Nat) (p : Option Prompt) : (l.setPrompt k p).store = l.store := rfl
@[simp] theorem Lib.setPrompt_cat (k : Nat) (p : Option Prompt) : (l.setPrompt k p).cat = l.cat := rfl
@[simp] theorem Lib.setPrompt_place (k : Nat) (p : Option Prompt) : (l.setPrompt k p).place = l.place := rfl
@[simp] theorem Lib.setPrompt_drives (k : Nat) (p : Option Prompt) : (l.setPrompt k p).drives = l.drives := rfl
@[simp] theorem Lib.setPrompt_reqs (k : Nat) (p : Option Prompt) : (l.setPrompt k p).reqs = l.reqs := rfl
@[simp] theorem Lib.setPrompt_rail (k : Nat) (p : Option Prompt) : (l.setPrompt k p).rail = l.rail := rfl
@[simp] theorem Lib.setPrompt_prompts (k : Nat) (p : Option Prompt) :
    (l.setPrompt k p).prompts = { l.prompts with slots := l.prompts.slots.set k p } := rfl
@[simp] theorem Lib.setPrompt_acct (k : Nat) (p : Option Prompt) : (l.setPrompt k p).acct = l.acct := rfl
@[simp] theorem Lib.setPrompt_att (k : Nat) (p : Option Prompt) : (l.setPrompt k p).att = l.att := rfl
@[simp] theorem Lib.setPrompt_start (k : Nat) (p : Option Prompt) : (l.setPrompt k p).start = l.start := rfl
@[simp] theorem Lib.setPrompt_out (k : Nat) (p : Option Prompt) : (l.setPrompt k p).out = l.out := rfl
@[simp] theorem Lib.setPrompt_notes (k : Nat) (p : Option Prompt) : (l.setPrompt k p).notes = l.notes := rfl

/-! ## placeOnScratch -/

@[simp] theorem Lib.placeOnScratch_store (s : Serial) : (l.placeOnScratch s).store = l.store := rfl
@[simp] theorem Lib.placeOnScratch_cat (s : Serial) :
    (l.placeOnScratch s).cat = { l.cat with scratch := l.scratchAfter s } := rfl
@[simp] theorem Lib.placeOnScratch_place (s : Serial) : (l.placeOnScratch s).place = l.place := rfl
@[simp] theorem Lib.placeOnScratch_drives (s : Serial) : (l.placeOnScratch s).drives = l.drives := rfl
@[simp] theorem Lib.placeOnScratch_reqs (s : Serial) : (l.placeOnScratch s).reqs = l.reqs := rfl
@[simp] theorem Lib.placeOnScratch_rail (s : Serial) : (l.placeOnScratch s).rail = l.rail := rfl
@[simp] theorem Lib.placeOnScratch_prompts (s : Serial) : (l.placeOnScratch s).prompts = l.prompts := rfl
@[simp] theorem Lib.placeOnScratch_acct (s : Serial) : (l.placeOnScratch s).acct = l.acct := rfl
@[simp] theorem Lib.placeOnScratch_att (s : Serial) : (l.placeOnScratch s).att = l.att := rfl
@[simp] theorem Lib.placeOnScratch_start (s : Serial) : (l.placeOnScratch s).start = l.start := rfl
@[simp] theorem Lib.placeOnScratch_out (s : Serial) : (l.placeOnScratch s).out = l.out := rfl
@[simp] theorem Lib.placeOnScratch_notes (s : Serial) : (l.placeOnScratch s).notes = l.notes := rfl

/-! ## updAcc -/

@[simp] theorem Lib.updAcc_store (x : AccId) (f : Accessor → Accessor) :
    (l.updAcc x f).store = l.store := by
  cases x <;> rfl
@[simp] theorem Lib.updAcc_cat (x : AccId) (f : Accessor → Accessor) :
    (l.updAcc x f).cat = l.cat := by
  cases x <;> rfl
@[simp] theorem Lib.updAcc_place (x : AccId) (f : Accessor → Accessor) :
    (l.updAcc x f).place = l.place := by
  cases x <;> rfl
@[simp] theorem Lib.updAcc_drives (x : AccId) (f : Accessor → Accessor) :
    (l.updAcc x f).drives = l.drives := by
  cases x <;> rfl
@[simp] theorem Lib.updAcc_reqs (x : AccId) (f : Accessor → Accessor) :
    (l.updAcc x f).reqs = l.reqs := by
  cases x <;> rfl
@[simp] theorem Lib.updAcc_prompts (x : AccId) (f : Accessor → Accessor) :
    (l.updAcc x f).prompts = l.prompts := by
  cases x <;> rfl
@[simp] theorem Lib.updAcc_acct (x : AccId) (f : Accessor → Accessor) :
    (l.updAcc x f).acct = l.acct := by
  cases x <;> rfl
@[simp] theorem Lib.updAcc_att (x : AccId) (f : Accessor → Accessor) :
    (l.updAcc x f).att = l.att := by
  cases x <;> rfl
@[simp] theorem Lib.updAcc_start (x : AccId) (f : Accessor → Accessor) :
    (l.updAcc x f).start = l.start := by
  cases x <;> rfl
@[simp] theorem Lib.updAcc_out (x : AccId) (f : Accessor → Accessor) :
    (l.updAcc x f).out = l.out := by
  cases x <;> rfl
@[simp] theorem Lib.updAcc_notes (x : AccId) (f : Accessor → Accessor) :
    (l.updAcc x f).notes = l.notes := by
  cases x <;> rfl
@[simp] theorem Lib.updAcc_firstWaiter (x : AccId) (f : Accessor → Accessor) :
    (l.updAcc x f).rail.firstWaiter = l.rail.firstWaiter := by cases x <;> rfl
@[simp] theorem Lib.updAcc_interlock (x : AccId) (f : Accessor → Accessor) :
    (l.updAcc x f).rail.interlock = l.rail.interlock := by cases x <;> rfl
@[simp] theorem Lib.updAcc_serviceOpen (x : AccId) (f : Accessor → Accessor) :
    (l.updAcc x f).rail.serviceOpen = l.rail.serviceOpen := by cases x <;> rfl
@[simp] theorem Lib.updAcc_haltedSpan (x : AccId) (f : Accessor → Accessor) :
    (l.updAcc x f).rail.haltedSpan = l.rail.haltedSpan := by cases x <;> rfl

@[simp] theorem Lib.acc_updAcc_self (x : AccId) (f : Accessor → Accessor) :
    (l.updAcc x f).acc x = f (l.acc x) := by cases x <;> rfl

@[simp] theorem Lib.acc_updAcc_other (x : AccId) (f : Accessor → Accessor) :
    (l.updAcc x f).acc (other x) = l.acc (other x) := by cases x <;> rfl

@[simp] theorem other_other (x : AccId) : other (other x) = x := by cases x <;> rfl

/-! ## The named raisings -/

@[simp] theorem Lib.raisePlain_store (s : Source) : (l.raisePlain s).store = l.store := rfl
@[simp] theorem Lib.raisePlain_cat (s : Source) : (l.raisePlain s).cat = l.cat := rfl
@[simp] theorem Lib.raisePlain_place (s : Source) : (l.raisePlain s).place = l.place := rfl
@[simp] theorem Lib.raisePlain_drives (s : Source) : (l.raisePlain s).drives = l.drives := rfl
@[simp] theorem Lib.raisePlain_reqs (s : Source) : (l.raisePlain s).reqs = l.reqs := rfl
@[simp] theorem Lib.raisePlain_rail (s : Source) : (l.raisePlain s).rail = l.rail := rfl
@[simp] theorem Lib.raisePlain_prompts (s : Source) : (l.raisePlain s).prompts = l.prompts := rfl
@[simp] theorem Lib.raisePlain_acct (s : Source) : (l.raisePlain s).acct = l.acct := rfl
@[simp] theorem Lib.raisePlain_att (s : Source) : (l.raisePlain s).att = l.att := rfl
@[simp] theorem Lib.raisePlain_start (s : Source) : (l.raisePlain s).start = l.start := rfl
@[simp] theorem Lib.raisePlain_out (s : Source) : (l.raisePlain s).out = l.out := rfl
@[simp] theorem Lib.raisePlain_notes (s : Source) :
    (l.raisePlain s).notes = { l.notes with raised := l.notes.raised ++ [{ source := s, drive := none, columns := none, tag := none }] } := rfl

@[simp] theorem Lib.raiseDrive_store (s : Source) (d : Nat) : (l.raiseDrive s d).store = l.store := rfl
@[simp] theorem Lib.raiseDrive_cat (s : Source) (d : Nat) : (l.raiseDrive s d).cat = l.cat := rfl
@[simp] theorem Lib.raiseDrive_place (s : Source) (d : Nat) : (l.raiseDrive s d).place = l.place := rfl
@[simp] theorem Lib.raiseDrive_drives (s : Source) (d : Nat) : (l.raiseDrive s d).drives = l.drives := rfl
@[simp] theorem Lib.raiseDrive_reqs (s : Source) (d : Nat) : (l.raiseDrive s d).reqs = l.reqs := rfl
@[simp] theorem Lib.raiseDrive_rail (s : Source) (d : Nat) : (l.raiseDrive s d).rail = l.rail := rfl
@[simp] theorem Lib.raiseDrive_prompts (s : Source) (d : Nat) : (l.raiseDrive s d).prompts = l.prompts := rfl
@[simp] theorem Lib.raiseDrive_acct (s : Source) (d : Nat) : (l.raiseDrive s d).acct = l.acct := rfl
@[simp] theorem Lib.raiseDrive_att (s : Source) (d : Nat) : (l.raiseDrive s d).att = l.att := rfl
@[simp] theorem Lib.raiseDrive_start (s : Source) (d : Nat) : (l.raiseDrive s d).start = l.start := rfl
@[simp] theorem Lib.raiseDrive_out (s : Source) (d : Nat) : (l.raiseDrive s d).out = l.out := rfl
@[simp] theorem Lib.raiseDrive_notes (s : Source) (d : Nat) :
    (l.raiseDrive s d).notes = { l.notes with raised := l.notes.raised ++ [{ source := s, drive := some d, columns := none, tag := none }] } := rfl

@[simp] theorem Lib.raiseRequest_store (s : Source) (t : Nat) : (l.raiseRequest s t).store = l.store := rfl
@[simp] theorem Lib.raiseRequest_cat (s : Source) (t : Nat) : (l.raiseRequest s t).cat = l.cat := rfl
@[simp] theorem Lib.raiseRequest_place (s : Source) (t : Nat) : (l.raiseRequest s t).place = l.place := rfl
@[simp] theorem Lib.raiseRequest_drives (s : Source) (t : Nat) : (l.raiseRequest s t).drives = l.drives := rfl
@[simp] theorem Lib.raiseRequest_reqs (s : Source) (t : Nat) : (l.raiseRequest s t).reqs = l.reqs := rfl
@[simp] theorem Lib.raiseRequest_rail (s : Source) (t : Nat) : (l.raiseRequest s t).rail = l.rail := rfl
@[simp] theorem Lib.raiseRequest_prompts (s : Source) (t : Nat) : (l.raiseRequest s t).prompts = l.prompts := rfl
@[simp] theorem Lib.raiseRequest_acct (s : Source) (t : Nat) : (l.raiseRequest s t).acct = l.acct := rfl
@[simp] theorem Lib.raiseRequest_att (s : Source) (t : Nat) : (l.raiseRequest s t).att = l.att := rfl
@[simp] theorem Lib.raiseRequest_start (s : Source) (t : Nat) : (l.raiseRequest s t).start = l.start := rfl
@[simp] theorem Lib.raiseRequest_out (s : Source) (t : Nat) : (l.raiseRequest s t).out = l.out := rfl
@[simp] theorem Lib.raiseRequest_notes (s : Source) (t : Nat) :
    (l.raiseRequest s t).notes = { l.notes with raised := l.notes.raised ++ [{ source := s, drive := none, columns := none, tag := some t }] } := rfl

@[simp] theorem Lib.raiseColumns_store (s : Source) (c : Option Span) : (l.raiseColumns s c).store = l.store := rfl
@[simp] theorem Lib.raiseColumns_cat (s : Source) (c : Option Span) : (l.raiseColumns s c).cat = l.cat := rfl
@[simp] theorem Lib.raiseColumns_place (s : Source) (c : Option Span) : (l.raiseColumns s c).place = l.place := rfl
@[simp] theorem Lib.raiseColumns_drives (s : Source) (c : Option Span) : (l.raiseColumns s c).drives = l.drives := rfl
@[simp] theorem Lib.raiseColumns_reqs (s : Source) (c : Option Span) : (l.raiseColumns s c).reqs = l.reqs := rfl
@[simp] theorem Lib.raiseColumns_rail (s : Source) (c : Option Span) : (l.raiseColumns s c).rail = l.rail := rfl
@[simp] theorem Lib.raiseColumns_prompts (s : Source) (c : Option Span) :
    (l.raiseColumns s c).prompts = l.prompts := rfl
@[simp] theorem Lib.raiseColumns_acct (s : Source) (c : Option Span) : (l.raiseColumns s c).acct = l.acct := rfl
@[simp] theorem Lib.raiseColumns_att (s : Source) (c : Option Span) : (l.raiseColumns s c).att = l.att := rfl
@[simp] theorem Lib.raiseColumns_start (s : Source) (c : Option Span) : (l.raiseColumns s c).start = l.start := rfl
@[simp] theorem Lib.raiseColumns_out (s : Source) (c : Option Span) : (l.raiseColumns s c).out = l.out := rfl
@[simp] theorem Lib.raiseColumns_notes (s : Source) (c : Option Span) :
    (l.raiseColumns s c).notes = { l.notes with raised := l.notes.raised ++ [{ source := s, drive := none, columns := c, tag := none }] } := rfl

/-! ## The port -/

variable (p : Port)

@[simp] theorem Port.ends_conn : (p.ends).conn = .free := rfl
@[simp] theorem Port.ends_req : (p.ends).req = false := rfl
@[simp] theorem Port.ends_block : (p.ends).block = [] := rfl
@[simp] theorem Port.ends_outData : (p.ends).outData = [] := rfl
@[simp] theorem Port.ends_outLeft : (p.ends).outLeft = 0 := rfl
@[simp] theorem Port.ends_inData : (p.ends).inData = [] := rfl
@[simp] theorem Port.ends_status : (p.ends).status = 0 := rfl
@[simp] theorem Port.ends_line : (p.ends).line = 0 := rfl
@[simp] theorem Port.ends_stall : (p.ends).stall = none := rfl
@[simp] theorem Port.ends_sense : (p.ends).sense = p.sense := rfl
@[simp] theorem Port.ends_last : (p.ends).last = p.last := rfl

@[simp] theorem Port.ask_conn : (p.ask).conn = p.conn := rfl
@[simp] theorem Port.ask_req : (p.ask).req = true := rfl
@[simp] theorem Port.ask_block : (p.ask).block = p.block := rfl
@[simp] theorem Port.ask_outData : (p.ask).outData = p.outData := rfl
@[simp] theorem Port.ask_outLeft : (p.ask).outLeft = p.outLeft := rfl
@[simp] theorem Port.ask_inData : (p.ask).inData = p.inData := rfl
@[simp] theorem Port.ask_status : (p.ask).status = p.status := rfl
@[simp] theorem Port.ask_line : (p.ask).line = p.line := rfl
@[simp] theorem Port.ask_stall : (p.ask).stall = some Config.ackStall := rfl
@[simp] theorem Port.ask_sense : (p.ask).sense = p.sense := rfl
@[simp] theorem Port.ask_last : (p.ask).last = p.last := rfl

@[simp] theorem Port.letGo_conn : (p.letGo).conn = p.conn := rfl
@[simp] theorem Port.letGo_req : (p.letGo).req = false := rfl
@[simp] theorem Port.letGo_block : (p.letGo).block = p.block := rfl
@[simp] theorem Port.letGo_outData : (p.letGo).outData = p.outData := rfl
@[simp] theorem Port.letGo_outLeft : (p.letGo).outLeft = p.outLeft := rfl
@[simp] theorem Port.letGo_inData : (p.letGo).inData = p.inData := rfl
@[simp] theorem Port.letGo_status : (p.letGo).status = p.status := rfl
@[simp] theorem Port.letGo_line : (p.letGo).line = p.line := rfl
@[simp] theorem Port.letGo_stall : (p.letGo).stall = some Config.ackStall := rfl
@[simp] theorem Port.letGo_sense : (p.letGo).sense = p.sense := rfl
@[simp] theorem Port.letGo_last : (p.letGo).last = p.last := rfl

@[simp] theorem Port.ended_conn (r : Result) : (p.ended r).conn = p.conn := by cases r <;> rfl
@[simp] theorem Port.ended_req (r : Result) : (p.ended r).req = p.req := by cases r <;> rfl
@[simp] theorem Port.ended_block (r : Result) : (p.ended r).block = p.block := by cases r <;> rfl
@[simp] theorem Port.ended_outData (r : Result) : (p.ended r).outData = p.outData := by cases r <;> rfl
@[simp] theorem Port.ended_outLeft (r : Result) : (p.ended r).outLeft = p.outLeft := by cases r <;> rfl
@[simp] theorem Port.ended_inData (r : Result) : (p.ended r).inData = p.inData := by cases r <;> rfl
@[simp] theorem Port.ended_status (r : Result) : (p.ended r).status = p.status := by cases r <;> rfl
@[simp] theorem Port.ended_line (r : Result) : (p.ended r).line = p.line := by cases r <;> rfl
@[simp] theorem Port.ended_stall (r : Result) : (p.ended r).stall = p.stall := by cases r <;> rfl
@[simp] theorem Port.ended_last (r : Result) : (p.ended r).last = some r := by cases r <;> rfl
@[simp] theorem Port.ended_good (d : List Field) : (p.ended (.good d)).sense = none := rfl
@[simp] theorem Port.ended_check (c : Sense) (s : Subject) :
    (p.ended (.check c s)).sense = some { code := c, subject := s } := rfl
@[simp] theorem Port.ended_busy : (p.ended .busy).sense = p.sense := rfl

/-! ## The state -/

variable (s : State)

@[simp] theorem event_set (f : Settings → Lib → Lib) : (event f s).set = s.set := by
  unfold event; split <;> rfl
@[simp] theorem event_port (f : Settings → Lib → Lib) : (event f s).port = s.port := by
  unfold event; split <;> rfl
@[simp] theorem event_pending (f : Settings → Lib → Lib) : (event f s).pending = s.pending := by
  unfold event; split <;> rfl

@[simp] theorem hostStep_pending (f : Settings → Lib → Applied) : (hostStep f s).pending = s.pending := by
  unfold hostStep; split <;> rfl

@[simp] theorem quietStep_set : (quietStep s).set = s.set := by
  unfold quietStep; split <;> rfl
@[simp] theorem quietStep_port : (quietStep s).port = s.port := by
  unfold quietStep; split <;> rfl
@[simp] theorem quietStep_pending : (quietStep s).pending = s.pending := by
  unfold quietStep; split <;> rfl

@[simp] theorem portStep_set (f : State → Port) : (portStep f s).set = s.set := by
  unfold portStep; split <;> rfl
@[simp] theorem portStep_pending (f : State → Port) : (portStep f s).pending = s.pending := by
  unfold portStep; split <;> rfl

@[simp] theorem keyStep_set (key : KeyName) (n : Nat) : (keyStep key n s).set = s.set := by
  unfold keyStep; split <;> rfl
@[simp] theorem keyStep_port (key : KeyName) (n : Nat) : (keyStep key n s).port = s.port := by
  unfold keyStep; split <;> rfl
@[simp] theorem keyStep_pending (key : KeyName) (n : Nat) : (keyStep key n s).pending = s.pending := by
  unfold keyStep; split <;> rfl

end Sys2Proof.Machine
end

