-- ==== Sys2Proof/Laws/Shape.lean ====
section
/-! SUPPORT. The operations of the records, up to the settling of a step, keep the shape of the records
(Safety): one lemma per operation. -/

namespace Sys2Proof.Machine
theorem Lib.shape_of_eq (l m : Lib) (h1 : m.drives.length = l.drives.length) (h2 : m.place.slots.length = l.place.slots.length)
   (h3 : m.prompts.slots.length = l.prompts.slots.length) (h4 : m.att = l.att) : m.shape = l.shape := by
  simp [Lib.shape, h1, h2, h3, h4]
@[simp] theorem Lib.foldl_shape {α : Type} (f : Lib → α → Lib) (h : ∀ l a, (f l a).shape = l.shape) (xs : List α) (l : Lib) :
    (xs.foldl f l).shape = l.shape := by
  induction xs generalizing l with
  | nil => rfl
  | cons x xs ih => rw [List.foldl_cons, ih, h]
@[simp] theorem Lib.updAcc_shape (x : AccId) (f : Accessor → Accessor) (l : Lib) :
    (l.updAcc x f).shape = l.shape := by cases x <;> rfl
theorem causes_keep (b : Byte) (n : Nat) (h : n < 5) : (b ||| BitVec.ofNat 8 (2 ^ n)) &&& 0xE0 = b &&& 0xE0 := by
  interval_cases n <;> revert b <;> decide +kernel
theorem Lib.setCause_shape (l : Lib) (n : Nat) (h : n < 5) : (l.setCause n).shape = l.shape := by
  have := causes_keep l.att.causes n h
  simp only [Lib.shape, Lib.setCause_att, Lib.setCause_drives, Lib.setCause_place, Lib.setCause_prompts, this]
@[simp] theorem Lib.setCause0_shape (l : Lib) :
    (l.setCause causeRequestDone).shape = l.shape := l.setCause_shape _ (by decide)
@[simp] theorem Lib.setCause1_shape (l : Lib) :
    (l.setCause causeMessageAnswered).shape = l.shape := l.setCause_shape _ (by decide)
@[simp] theorem Lib.setCause2_shape (l : Lib) :
    (l.setCause causeInterlock).shape = l.shape := l.setCause_shape _ (by decide)
@[simp] theorem Lib.setCause3_shape (l : Lib) :
    (l.setCause causeStartupComplete).shape = l.shape := l.setCause_shape _ (by decide)
@[simp] theorem Lib.setCause4_shape (l : Lib) :
    (l.setCause causeLinkedEvent).shape = l.shape := l.setCause_shape _ (by decide)
theorem linked_keep (b : BitVec 16) (s : Source) : (b ||| BitVec.ofNat 16 (2 ^ (s.number - 1))) &&& 0xF000 = b &&& 0xF000 := by
  cases s <;> simp only [Source.number] <;> ext i hi <;> interval_cases i <;> simp
@[simp] theorem Lib.addLinked_shape (l : Lib) (s : Source) : (l.addLinked s).shape = l.shape := by
  have := linked_keep l.att.linked s
  simp only [Lib.shape, Lib.addLinked_att, Lib.addLinked_drives, Lib.addLinked_place, Lib.addLinked_prompts, this]

@[simp] theorem Lib.send_shape (m : Msg) (l : Lib) :
    (l.send m).shape = l.shape := by
  simp [Lib.send, Lib.shape]

@[simp] theorem Lib.raise_shape (r : Raising) (l : Lib) :
    (l.raise r).shape = l.shape := by
  simp [Lib.raise, Lib.shape]

@[simp] theorem Lib.raisePlain_shape (s : Source) (l : Lib) :
    (l.raisePlain s).shape = l.shape := by
  unfold Lib.raisePlain; simp

@[simp] theorem Lib.raiseDrive_shape (s : Source) (d : Nat) (l : Lib) :
    (l.raiseDrive s d).shape = l.shape := by
  unfold Lib.raiseDrive; simp

@[simp] theorem Lib.raiseRequest_shape (s : Source) (t : Nat) (l : Lib) :
    (l.raiseRequest s t).shape = l.shape := by
  unfold Lib.raiseRequest; simp

@[simp] theorem Lib.raiseColumns_shape (s : Source) (c : Option Span) (l : Lib) :
    (l.raiseColumns s c).shape = l.shape := by
  unfold Lib.raiseColumns; simp

@[simp] theorem Lib.raiseAccessor_shape (x : AccId) (c : Span) (l : Lib) :
    (l.raiseAccessor x c).shape = l.shape := by
  unfold Lib.raiseAccessor; simp

@[simp] theorem Lib.raiseMissing_shape (s : Serial) (c : Option Span) (l : Lib) :
    (l.raiseMissing s c).shape = l.shape := by
  unfold Lib.raiseMissing; simp

@[simp] theorem Lib.wake_shape (l : Lib) :
    (l.wake).shape = l.shape := by
  simp [Lib.wake, Lib.shape]

@[simp] theorem Lib.notePlaceFreed_shape (l : Lib) :
    (l.notePlaceFreed).shape = l.shape := by
  simp [Lib.notePlaceFreed, Lib.shape]

@[simp] theorem Lib.noteEntryFreed_shape (l : Lib) :
    (l.noteEntryFreed).shape = l.shape := by
  simp [Lib.noteEntryFreed, Lib.shape]

@[simp] theorem Lib.noteOffer_shape (d : Nat) (l : Lib) :
    (l.noteOffer d).shape = l.shape := by
  simp [Lib.noteOffer, Lib.shape]

@[simp] theorem Lib.updVol_shape (s : Serial) (f : Volume → Volume) (l : Lib) :
    (l.updVol s f).shape = l.shape := by
  simp [Lib.updVol, Lib.shape]

@[simp] theorem Lib.addVol_shape (v : Volume) (l : Lib) :
    (l.addVol v).shape = l.shape := by
  simp [Lib.addVol, Lib.shape]

@[simp] theorem Lib.dropVol_shape (s : Serial) (l : Lib) :
    (l.dropVol s).shape = l.shape := by
  simp [Lib.dropVol, Lib.shape]

@[simp] theorem Lib.updDrive_shape (d : Nat) (f : Drive → Drive) (l : Lib) :
    (l.updDrive d f).shape = l.shape := by
  simp [Lib.updDrive, Lib.shape]

@[simp] theorem Lib.updReq_shape (t : Nat) (f : Request → Request) (l : Lib) :
    (l.updReq t f).shape = l.shape := by
  simp [Lib.updReq, Lib.shape]

@[simp] theorem Lib.updAcct_shape (n : Nat) (f : Account → Account) (l : Lib) :
    (l.updAcct n f).shape = l.shape := by
  simp [Lib.updAcct, Lib.shape]

@[simp] theorem Lib.setPrompt_shape (k : Nat) (p : Option Prompt) (l : Lib) :
    (l.setPrompt k p).shape = l.shape := by
  simp [Lib.setPrompt, Lib.shape]

@[simp] theorem Lib.display_shape (x : Nat × Prompt) (force : Bool) (l : Lib) :
    (l.display x force).shape = l.shape := by
  simp [Lib.display, Lib.shape]

@[simp] theorem Lib.presentFirst_shape (l : Lib) :
    (l.presentFirst).shape = l.shape := by
  unfold Lib.presentFirst; (repeat' split) <;> simp <;> simp [Lib.shape]

@[simp] theorem Lib.refresh_shape (posting : Nat) (force : Bool) (l : Lib) :
    (l.refresh posting force).shape = l.shape := by
  unfold Lib.refresh; (repeat' split) <;> simp

@[simp] theorem Lib.fillSlot_shape (g : Settings) (k : Nat) (d : Draft) (l : Lib) :
    (l.fillSlot g k d).shape = l.shape := by
  simp [Lib.fillSlot, Lib.shape]

@[simp] theorem Lib.postAt_shape (g : Settings) (k : Nat) (d : Draft) (l : Lib) :
    (l.postAt g k d).shape = l.shape := by
  unfold Lib.postAt; dsimp only; (repeat' split) <;> simp

@[simp] theorem Lib.offerSlot_shape (g : Settings) (l : Lib) :
    (l.offerSlot g).shape = l.shape := by
  unfold Lib.offerSlot; (repeat' split) <;> simp <;> simp [Lib.shape]

@[simp] theorem Lib.offerSlots_shape (g : Settings) (n : Nat) (l : Lib) :
    (Lib.offerSlots g n l).shape = l.shape := by
  induction n generalizing l with
  | zero => rfl
  | succ n ih => unfold Lib.offerSlots; split <;> simp [ih]

@[simp] theorem Lib.emptySlot_shape (k : Nat) (l : Lib) :
    (l.emptySlot k).shape = l.shape := by
  unfold Lib.emptySlot; dsimp only; (repeat' split) <;> simp

@[simp] theorem Lib.withdrawSlot_shape (g : Settings) (k : Nat) (l : Lib) :
    (l.withdrawSlot g k).shape = l.shape := by
  unfold Lib.withdrawSlot; split <;> simp

@[simp] theorem Lib.withdrawWhere_shape (g : Settings) (test : Prompt → Bool) (l : Lib) :
    (l.withdrawWhere g test).shape = l.shape := by
  unfold Lib.withdrawWhere; simp

@[simp] theorem Lib.withdrawNotice_shape (g : Settings) (kind : PromptKind) (test : PromptSubject → Bool) (l : Lib) :
    (l.withdrawNotice g kind test).shape = l.shape := by
  unfold Lib.withdrawNotice; simp

@[simp] theorem Lib.postNotice_shape (g : Settings) (kind : PromptKind) (subject : PromptSubject) (detail : Nat) (l : Lib) :
    (l.postNotice g kind subject detail).shape = l.shape := by
  unfold Lib.postNotice; (repeat' split) <;> simp

@[simp] theorem Lib.joinPromptWaits_shape (kind : PromptKind) (tag : Nat) (subject : PromptSubject) (detail : Nat) (l : Lib) :
    (l.joinPromptWaits kind tag subject detail).shape = l.shape := by
  unfold Lib.joinPromptWaits; (repeat' split) <;> simp <;> simp [Lib.shape]

@[simp] theorem Lib.dropWait_shape (tag : Nat) (l : Lib) :
    (l.dropWait tag).shape = l.shape := by
  simp [Lib.dropWait, Lib.shape]

@[simp] theorem Lib.clearRequestPrompt_shape (g : Settings) (tag : Nat) (l : Lib) :
    (l.clearRequestPrompt g tag).shape = l.shape := by
  unfold Lib.clearRequestPrompt; simp

@[simp] theorem Lib.postRequest_shape (g : Settings) (kind : PromptKind) (tag : Nat) (subject : PromptSubject) (detail : Nat) (l : Lib) :
    (l.postRequest g kind tag subject detail).shape = l.shape := by
  unfold Lib.postRequest; dsimp only; (repeat' split) <;> simp

@[simp] theorem Lib.answerMessage_shape (x : Nat × Prompt) (answer : Answer) (l : Lib) :
    (l.answerMessage x answer).shape = l.shape := by
  unfold Lib.answerMessage; dsimp only; (repeat' split) <;> simp

@[simp] theorem Lib.markWrongVolume_shape (tag : Nat) (wrong : Bool) (l : Lib) :
    (l.markWrongVolume tag wrong).shape = l.shape := by
  unfold Lib.markWrongVolume; (repeat' split) <;> simp

@[simp] theorem Lib.retagPrompts_shape (old new : Nat) (l : Lib) :
    (l.retagPrompts old new).shape = l.shape := by
  simp [Lib.retagPrompts, Lib.shape]

@[simp] theorem Lib.judgeLow_shape (g : Settings) (l : Lib) :
    (l.judgeLow g).shape = l.shape := by
  unfold Lib.judgeLow; (repeat' split) <;> simp <;> simp [Lib.shape]

@[simp] theorem Lib.evalLow_shape (g : Settings) (l : Lib) :
    (l.evalLow g).shape = l.shape := by
  unfold Lib.evalLow; dsimp only; split <;> simp

@[simp] theorem Lib.placeOnScratch_shape (s : Serial) (l : Lib) :
    (l.placeOnScratch s).shape = l.shape := by
  simp [Lib.placeOnScratch, Lib.shape]

@[simp] theorem Lib.syncScratch_shape (g : Settings) (s : Serial) (l : Lib) :
    (l.syncScratch g s).shape = l.shape := by
  unfold Lib.syncScratch; dsimp only; (repeat' split) <;> simp

@[simp] theorem Lib.placeAllOnScratch_shape (l : Lib) :
    (l.placeAllOnScratch).shape = l.shape := by
  unfold Lib.placeAllOnScratch; simp

@[simp] theorem Lib.syncAllScratch_shape (g : Settings) (l : Lib) :
    (l.syncAllScratch g).shape = l.shape := by
  unfold Lib.syncAllScratch; dsimp only; (repeat' split) <;> simp

@[simp] theorem Lib.orderJoined_shape (was : List Serial) (l : Lib) :
    (l.orderJoined was).shape = l.shape := by
  simp [Lib.orderJoined, Lib.shape]

@[simp] theorem Lib.changeVol_shape (g : Settings) (s : Serial) (f : Volume → Volume) (l : Lib) :
    (l.changeVol g s f).shape = l.shape := by
  unfold Lib.changeVol; dsimp only; (repeat' split) <;> simp

@[simp] theorem Lib.moveVol_shape (g : Settings) (s : Serial) (st : VolState) (l : Lib) :
    (l.moveVol g s st).shape = l.shape := by
  unfold Lib.moveVol; simp

@[simp] theorem Lib.setCell_shape (n : Nat) (c : Cell) (l : Lib) : (l.setCell n c).shape = l.shape := by
  unfold Lib.setCell; simp only [apply_ite Lib.shape]; simp [Lib.shape]

@[simp] theorem Lib.reserveHome_shape (g : Settings) (s : Serial) (n : Nat) (l : Lib) :
    (l.reserveHome g s n).shape = l.shape := by
  unfold Lib.reserveHome; simp

@[simp] theorem Lib.clearHome_shape (g : Settings) (s : Serial) (c : Cell) (l : Lib) :
    (l.clearHome g s c).shape = l.shape := by
  unfold Lib.clearHome; split <;> simp

@[simp] theorem Lib.clearMarks_shape (tag : Nat) (l : Lib) : (l.clearMarks tag).shape = l.shape := by
  unfold Lib.clearMarks; apply Lib.foldl_shape; intro l n; split <;> simp

@[simp] theorem Lib.updateRemove_shape (g : Settings) (l : Lib) :
    (l.updateRemove g).shape = l.shape := by
  unfold Lib.updateRemove; split <;> simp

@[simp] theorem Lib.changeSlot_shape (g : Settings) (k : Nat) (s : Slot) (l : Lib) :
    (l.changeSlot g k s).shape = l.shape := by
  unfold Lib.changeSlot; dsimp only; (repeat' split) <;> (try simp only [Lib.withdrawNotice_shape, Lib.notePlaceFreed_shape]) <;> simp [Lib.shape]

@[simp] theorem Lib.setSlot_shape (g : Settings) (k : Nat) (s : Slot) (l : Lib) :
    (l.setSlot g k s).shape = l.shape := by
  unfold Lib.setSlot; simp

@[simp] theorem Lib.postRejected_shape (g : Settings) (k : Nat) (label : Option Serial) (why : Reject) (l : Lib) :
    (l.postRejected g k label why).shape = l.shape := by
  unfold Lib.postRejected; simp

@[simp] theorem Lib.rejectSlot_shape (g : Settings) (k : Nat) (label : Option Serial) (why : Reject) (l : Lib) :
    (l.rejectSlot g k label why).shape = l.shape := by
  unfold Lib.rejectSlot; simp

@[simp] theorem Lib.freePlaceSlot_shape (g : Settings) (tag : Nat) (l : Lib) :
    (l.freePlaceSlot g tag).shape = l.shape := by
  unfold Lib.freePlaceSlot; split <;> simp

@[simp] theorem Lib.emptyPlaceSlot_shape (g : Settings) (tag : Nat) (l : Lib) :
    (l.emptyPlaceSlot g tag).shape = l.shape := by
  unfold Lib.emptyPlaceSlot; split <;> simp

@[simp] theorem Lib.declareMissing_shape (g : Settings) (s : Serial) (cellTo : Cell) (l : Lib) :
    (l.declareMissing g s cellTo).shape = l.shape := by
  unfold Lib.declareMissing; (repeat' split) <;> simp

@[simp] theorem Lib.accrue_shape (account : Option Nat) (f : Account → Account) (l : Lib) :
    (l.accrue account f).shape = l.shape := by
  unfold Lib.accrue; split <;> simp

@[simp] theorem Lib.reserveDrive_shape (d tag : Nat) (cause : Cause) (l : Lib) :
    (l.reserveDrive d tag cause).shape = l.shape := by
  unfold Lib.reserveDrive; simp

@[simp] theorem Lib.driveFreed_shape (d : Nat) (l : Lib) :
    (l.driveFreed d).shape = l.shape := by
  unfold Lib.driveFreed; split <;> simp

@[simp] theorem Lib.releaseDrive_shape (d : Nat) (l : Lib) :
    (l.releaseDrive d).shape = l.shape := by
  unfold Lib.releaseDrive; split <;> simp

@[simp] theorem Lib.becomeIdle_shape (g : Settings) (d : Nat) (l : Lib) :
    (l.becomeIdle g d).shape = l.shape := by
  unfold Lib.becomeIdle; simp

@[simp] theorem Lib.enterIdle_shape (g : Settings) (d : Nat) (l : Lib) :
    (l.enterIdle g d).shape = l.shape := by
  unfold Lib.enterIdle; split <;> simp

@[simp] theorem Lib.leaveDrives_shape (tag : Nat) (l : Lib) : (l.leaveDrives tag).shape = l.shape := by
  unfold Lib.leaveDrives; apply Lib.foldl_shape; intro l n; split <;> simp

@[simp] theorem Lib.closeMounted_shape (g : Settings) (d : Nat) (l : Lib) :
    (l.closeMounted g d).shape = l.shape := by
  unfold Lib.closeMounted; split <;> simp

@[simp] theorem Lib.enterRewinding_shape (g : Settings) (d : Nat) (l : Lib) :
    (l.enterRewinding g d).shape = l.shape := by
  unfold Lib.enterRewinding; simp

@[simp] theorem Lib.orderUnload_shape (g : Settings) (d : Nat) (l : Lib) :
    (l.orderUnload g d).shape = l.shape := by
  unfold Lib.orderUnload; simp

@[simp] theorem Lib.enterFaulted_shape (g : Settings) (d code : Nat) (l : Lib) :
    (l.enterFaulted g d code).shape = l.shape := by
  unfold Lib.enterFaulted; simp

@[simp] theorem Lib.postAttention_shape (g : Settings) (d : Nat) (waiting : Option Nat) (l : Lib) :
    (l.postAttention g d waiting).shape = l.shape := by
  unfold Lib.postAttention; split <;> simp

@[simp] theorem Lib.clearAttentionPrompt_shape (g : Settings) (d : Nat) (l : Lib) :
    (l.clearAttentionPrompt g d).shape = l.shape := by
  unfold Lib.clearAttentionPrompt; (repeat' split) <;> simp <;> simp [Lib.shape]

@[simp] theorem Lib.checkCleaning_shape (d : Nat) (l : Lib) :
    (l.checkCleaning d).shape = l.shape := by
  unfold Lib.checkCleaning; (repeat' split) <;> simp

@[simp] theorem Lib.cleaned_shape (g : Settings) (d : Nat) (l : Lib) :
    (l.cleaned g d).shape = l.shape := by
  unfold Lib.cleaned; simp

@[simp] theorem Lib.setReqState_shape (g : Settings) (t : Nat) (st : ReqState) (l : Lib) :
    (l.setReqState g t st).shape = l.shape := by
  unfold Lib.setReqState; (repeat' split) <;> simp

@[simp] theorem Lib.takeQueue_shape (t : Nat) (l : Lib) :
    (l.takeQueue t).shape = l.shape := by
  simp [Lib.takeQueue, Lib.shape]

@[simp] theorem Lib.enterQueued_shape (g : Settings) (t : Nat) (l : Lib) :
    (l.enterQueued g t).shape = l.shape := by
  unfold Lib.enterQueued; simp

@[simp] theorem Lib.enterReturnReady_shape (g : Settings) (t : Nat) (source : Place) (l : Lib) :
    (l.enterReturnReady g t source).shape = l.shape := by
  unfold Lib.enterReturnReady; simp

@[simp] theorem Lib.dropDrive_shape (t : Nat) (l : Lib) :
    (l.dropDrive t).shape = l.shape := by
  unfold Lib.dropDrive; simp

@[simp] theorem Lib.fixCode_shape (t : Nat) (c : Code) (l : Lib) :
    (l.fixCode t c).shape = l.shape := by
  unfold Lib.fixCode; simp

@[simp] theorem Lib.takeHold_shape (g : Settings) (s : Serial) (t : Nat) (l : Lib) :
    (l.takeHold g s t).shape = l.shape := by
  unfold Lib.takeHold; simp

@[simp] theorem Lib.releaseHold_shape (g : Settings) (t : Nat) (l : Lib) :
    (l.releaseHold g t).shape = l.shape := by
  unfold Lib.releaseHold; (repeat' split) <;> simp

@[simp] theorem Lib.freeEntry_shape (t : Nat) (l : Lib) :
    (l.freeEntry t).shape = l.shape := by
  simp [Lib.freeEntry, Lib.shape]

@[simp] theorem Lib.complete_shape (g : Settings) (t : Nat) (c : Code) (l : Lib) :
    (l.complete g t c).shape = l.shape := by
  unfold Lib.complete; dsimp only; (repeat' split) <;> simp

@[simp] theorem Lib.admitReq_shape (g : Settings) (tag : Nat) (origin : Origin) (kind : Kind) (cargo : Cargo) (priority : Nat) (fill : Request → Request) (l : Lib) :
    (l.admitReq g tag origin kind cargo priority fill).shape = l.shape := by
  unfold Lib.admitReq; (repeat' split) <;> simp <;> simp [Lib.shape]

@[simp] theorem Lib.rotate_shape (t : Nat) (l : Lib) :
    (l.rotate t).shape = l.shape := by
  simp [Lib.rotate, Lib.shape]

@[simp] theorem Lib.createInternal_shape (g : Settings) (kind : Kind) (cargo : Cargo) (priority : Nat)
    (fill : Request → Request) (l : Lib) : (l.createInternal g kind cargo priority fill).2.shape = l.shape := by
  simp [Lib.createInternal]

@[simp] theorem Lib.createReturn_shape (g : Settings) (cargo : Cargo) (source : Place) (l : Lib) :
    (l.createReturn g cargo source).2.shape = l.shape := by
  simp [Lib.createReturn]

@[simp] theorem Lib.createAudit_shape (g : Settings) (columns : Span) (bySpan : Bool) (l : Lib) :
    (l.createAudit g columns bySpan).2.shape = l.shape := by
  simp [Lib.createAudit]

@[simp] theorem Lib.queueClean_shape (g : Settings) (d : Nat) (l : Lib) :
    (l.queueClean g d).shape = l.shape := by
  unfold Lib.queueClean; (repeat' split) <;> simp

@[simp] theorem Lib.startImport_shape (g : Settings) (k : Nat) (label : Option Serial) (s : Serial) (c : Option Nat) (l : Lib) :
    (l.startImport g k label s c).shape = l.shape := by
  unfold Lib.startImport; split <;> simp

@[simp] theorem Lib.handOver_shape (g : Settings) (k : Nat) (s : Serial) (l : Lib) :
    (l.handOver g k s).shape = l.shape := by
  unfold Lib.handOver; (repeat' split) <;> simp

@[simp] theorem Lib.completeCancelled_shape (g : Settings) (t : Nat) (l : Lib) :
    (l.completeCancelled g t).shape = l.shape := by
  unfold Lib.completeCancelled; dsimp only; (repeat' split) <;> simp

@[simp] theorem Lib.backToList_shape (g : Settings) (t : Nat) (l : Lib) :
    (l.backToList g t).shape = l.shape := by
  unfold Lib.backToList; (repeat' split) <;> simp

@[simp] theorem Lib.giveManual_shape (g : Settings) (d t : Nat) (l : Lib) :
    (l.giveManual g d t).shape = l.shape := by
  unfold Lib.giveManual; simp

@[simp] theorem Lib.chooseRoute_shape (g : Settings) (t : Nat) (l : Lib) :
    (l.chooseRoute g t).shape = l.shape := by
  unfold Lib.chooseRoute; dsimp only; (repeat' split) <;> simp

@[simp] theorem Lib.offerManual_shape (g : Settings) (d : Nat) (l : Lib) :
    (l.offerManual g d).shape = l.shape := by
  unfold Lib.offerManual; split <;> simp

@[simp] theorem Lib.leaveHeld_shape (g : Settings) (t : Nat) (l : Lib) :
    (l.leaveHeld g t).shape = l.shape := by
  unfold Lib.leaveHeld; (repeat' split) <;> simp

@[simp] theorem Lib.reqMounted_shape (g : Settings) (t : Nat) (l : Lib) :
    (l.reqMounted g t).shape = l.shape := by
  unfold Lib.reqMounted; dsimp only; (repeat' split) <;> simp

@[simp] theorem Lib.reqUnmounted_shape (g : Settings) (t : Nat) (l : Lib) :
    (l.reqUnmounted g t).shape = l.shape := by
  unfold Lib.reqUnmounted; (repeat' split) <;> simp

@[simp] theorem Lib.reqRewinding_shape (g : Settings) (t : Nat) (l : Lib) :
    (l.reqRewinding g t).shape = l.shape := by
  unfold Lib.reqRewinding; simp

@[simp] theorem Lib.returnFromDrive_shape (g : Settings) (d : Nat) (l : Lib) :
    (l.returnFromDrive g d).shape = l.shape := by
  unfold Lib.returnFromDrive; dsimp only; (repeat' split) <;> simp

@[simp] theorem Lib.enterAwaitPick_shape (g : Settings) (d : Nat) (l : Lib) :
    (l.enterAwaitPick g d).shape = l.shape := by
  unfold Lib.enterAwaitPick; dsimp only; (repeat' split) <;> simp

@[simp] theorem Lib.mountAt_shape (g : Settings) (d t : Nat) (l : Lib) :
    (l.mountAt g d t).shape = l.shape := by
  unfold Lib.mountAt; simp

@[simp] theorem Lib.updateLock_shape (l : Lib) :
    (l.updateLock).shape = l.shape := by
  unfold Lib.updateLock; dsimp only; (repeat' split) <;> simp <;> simp [Lib.shape]

@[simp] theorem Lib.sendOrder_shape (g : Settings) (x : AccId) (l : Lib) :
    (l.sendOrder g x).shape = l.shape := by
  unfold Lib.sendOrder; dsimp only; (repeat' split) <;> simp

@[simp] theorem Lib.sendQuery_shape (g : Settings) (x : AccId) (why : QueryFor) (l : Lib) :
    (l.sendQuery g x why).shape = l.shape := by
  unfold Lib.sendQuery; simp

@[simp] theorem Lib.leftWait_shape (x : AccId) (l : Lib) :
    (l.leftWait x).shape = l.shape := by
  unfold Lib.leftWait; (repeat' split) <;> simp <;> simp [Lib.shape]

@[simp] theorem Lib.granted_shape (g : Settings) (x : AccId) (s : Span) (l : Lib) :
    (l.granted g x s).shape = l.shape := by
  unfold Lib.granted; dsimp only; (repeat' split) <;> simp

@[simp] theorem Lib.retest_shape (g : Settings) (x : AccId) (l : Lib) :
    (l.retest g x).shape = l.shape := by
  unfold Lib.retest; (repeat' split) <;> simp

@[simp] theorem Lib.startYield_shape (g : Settings) (y : AccId) (c : Nat) (l : Lib) :
    (l.startYield g y c).shape = l.shape := by
  unfold Lib.startYield; simp

@[simp] theorem Lib.setCauseOf_shape (o : Order) (c : Cause) (l : Lib) :
    (l.setCauseOf o c).shape = l.shape := by
  unfold Lib.setCauseOf; (repeat' split) <;> simp

@[simp] theorem Lib.releaseReservations_shape (g : Settings) (o : Order) (t : Nat) (l : Lib) :
    (l.releaseReservations g o t).shape = l.shape := by
  unfold Lib.releaseReservations; dsimp only; (repeat' split) <;> simp

@[simp] theorem Lib.unstage_shape (x : AccId) (l : Lib) : (l.unstage x).shape = l.shape := by
  unfold Lib.unstage; simp

@[simp] theorem Lib.withdrawStaged_shape (g : Settings) (x : AccId) (l : Lib) :
    (l.withdrawStaged g x).shape = l.shape := by
  unfold Lib.withdrawStaged; (repeat' split) <;> simp

@[simp] theorem Lib.dropStaged_shape (g : Settings) (t : Nat) (l : Lib) :
    (l.dropStaged g t).shape = l.shape := by
  unfold Lib.dropStaged; (repeat' split) <;> simp

@[simp] theorem Lib.withdrawFor_shape (g : Settings) (t : Nat) (l : Lib) :
    (l.withdrawFor g t).shape = l.shape := by
  unfold Lib.withdrawFor; split <;> simp

@[simp] theorem Lib.setAside_shape (g : Settings) (x : AccId) (need : Span) (l : Lib) :
    (l.setAside g x need).shape = l.shape := by
  unfold Lib.setAside; dsimp only; (repeat' split) <;> simp

@[simp] theorem Lib.contend_shape (g : Settings) (x : AccId) (l : Lib) :
    (l.contend g x).shape = l.shape := by
  unfold Lib.contend; dsimp only; (repeat' split) <;> simp

@[simp] theorem Lib.enterWait_shape (g : Settings) (x : AccId) (s : Span) (l : Lib) :
    (l.enterWait g x s).shape = l.shape := by
  unfold Lib.enterWait; (repeat' split) <;> simp <;> simp [Lib.shape]

@[simp] theorem Lib.takeUp_shape (g : Settings) (x : AccId) (l : Lib) :
    (l.takeUp g x).shape = l.shape := by
  unfold Lib.takeUp; dsimp only; (repeat' split) <;> simp

theorem Lib.chooseDest_shape (g : Settings) (t : Nat) (b : Bool) (l m : Lib) (d : Place)
    (h : l.chooseDest g t b = some (d, m)) : m.shape = l.shape := by
  unfold Lib.chooseDest at h
  split at h
  · simp at h
  · dsimp only at h
    (repeat' split at h) <;> simp at h <;> (try obtain ⟨_, _, _, rfl⟩ := h) <;> (try obtain ⟨_, rfl⟩ := h) <;> simp

@[simp] theorem Lib.decideAs_shape (b : Bool) (x : AccId) (l : Lib) :
    (l.decideAs b x).shape = l.shape := by
  unfold Lib.decideAs; simp

@[simp] theorem Lib.holdReel_shape (g : Settings) (x : AccId) (l : Lib) :
    (l.holdReel g x).shape = l.shape := by
  unfold Lib.holdReel; simp

@[simp] theorem Lib.clearHeldNotice_shape (g : Settings) (x : AccId) (l : Lib) :
    (l.clearHeldNotice g x).shape = l.shape := by
  unfold Lib.clearHeldNotice; simp

@[simp] theorem Lib.retarget_shape (g : Settings) (x : AccId) (d : Place) (l : Lib) :
    (l.retarget g x d).shape = l.shape := by
  unfold Lib.retarget; dsimp only; (repeat' split) <;> simp

@[simp] theorem Lib.destFound_shape (g : Settings) (x : AccId) (d : Place) (l : Lib) :
    (l.destFound g x d).shape = l.shape := by
  unfold Lib.destFound; simp

@[simp] theorem Lib.noteNewHome_shape (x : AccId) (t : Nat) (l was : Lib) :
    (l.noteNewHome x t was).shape = l.shape := by
  unfold Lib.noteNewHome; split <;> simp

theorem Lib.sendReel?_shape (g : Settings) (x : AccId) (t : Nat) (b : Bool) (l m : Lib)
    (h : l.sendReel? g x t b = some m) : m.shape = l.shape := by
  obtain ⟨c, hc, rfl⟩ := Option.map_eq_some_iff.mp h
  simp [Lib.chooseDest_shape g t b l c.2 c.1 hc]

@[simp] theorem Lib.retargetOrHold_shape (g : Settings) (x : AccId) (l : Lib) :
    (l.retargetOrHold g x).shape = l.shape := by
  unfold Lib.retargetOrHold
  split
  · rfl
  · split
    · rfl
    · next t _ =>
      cases h : l.sendReel? g x t _ with
      | some m => exact Lib.sendReel?_shape g x t _ l m h
      | none => simp

@[simp] theorem Lib.tryHeld_shape (g : Settings) (x : AccId) (l : Lib) : (l.tryHeld g x).shape = l.shape := by
  unfold Lib.tryHeld
  split
  · rfl
  · next o _ =>
    split
    · cases h : o.serves.bind fun t => l.sendReel? g x t o.asReturn with
      | some m =>
        obtain ⟨t, _, h⟩ := Option.bind_eq_some_iff.mp h
        exact Lib.sendReel?_shape g x t _ l m h
      | none => rfl
    · rfl

@[simp] theorem Lib.offerPlaces_shape (g : Settings) (l : Lib) :
    (l.offerPlaces g).shape = l.shape := by
  unfold Lib.offerPlaces
  split
  · exact (Lib.tryHeld_shape g .b _).trans (Lib.tryHeld_shape g .a _)
  · rfl

@[simp] theorem Lib.makeCurrent_shape (g : Settings) (x : AccId) (o : Order) (l : Lib) :
    (l.makeCurrent g x o).shape = l.shape := by
  unfold Lib.makeCurrent; dsimp only; (repeat' split) <;> simp

@[simp] theorem Lib.promote_shape (g : Settings) (x : AccId) (l : Lib) :
    (l.promote g x).shape = l.shape := by
  unfold Lib.promote; (repeat' split) <;> simp

@[simp] theorem Lib.serveWaiter_shape (g : Settings) (y : AccId) (l : Lib) :
    (l.serveWaiter g y).shape = l.shape := by
  unfold Lib.serveWaiter; dsimp only; (repeat' split) <;> simp

@[simp] theorem Lib.endOrder_shape (g : Settings) (y : AccId) (l : Lib) :
    (l.endOrder g y).shape = l.shape := by
  unfold Lib.endOrder; dsimp only; (repeat' split) <;> simp

@[simp] theorem Lib.abandon_shape (g : Settings) (x : AccId) (l : Lib) :
    (l.abandon g x).shape = l.shape := by
  unfold Lib.abandon; split <;> simp

@[simp] theorem Lib.driveLost_shape (g : Settings) (t : Nat) (l : Lib) :
    (l.driveLost g t).shape = l.shape := by
  unfold Lib.driveLost; (repeat' split) <;> simp

@[simp] theorem Lib.unreserve_shape (g : Settings) (d : Nat) (l : Lib) :
    (l.unreserve g d).shape = l.shape := by
  unfold Lib.unreserve; split <;> simp

@[simp] theorem Lib.loseVolume_shape (g : Settings) (s : Serial) (cellTo : Cell) (l : Lib) :
    (l.loseVolume g s cellTo).shape = l.shape := by
  unfold Lib.loseVolume; dsimp only; (repeat' split) <;> simp

@[simp] theorem Lib.faultedOrder_shape (g : Settings) (o : Order) (l : Lib) :
    (l.faultedOrder g o).shape = l.shape := by
  unfold Lib.faultedOrder; dsimp only; (repeat' split) <;> simp

@[simp] theorem Lib.gripperToList_shape (g : Settings) (x : AccId) (t : Nat) (l : Lib) :
    (l.gripperToList g x t).shape = l.shape := by
  unfold Lib.gripperToList; dsimp only; split <;> simp

@[simp] theorem Lib.dropUnreachable_shape (g : Settings) (x : AccId) (l : Lib) :
    (l.dropUnreachable g x).shape = l.shape := by
  unfold Lib.dropUnreachable; dsimp only; (repeat' split) <;> simp

@[simp] theorem Lib.faultAcc_shape (g : Settings) (x : AccId) (why : FaultCause) (column : Option Nat) (l : Lib) :
    (l.faultAcc g x why column).shape = l.shape := by
  unfold Lib.faultAcc
  simp only [Lib.wake_shape, Lib.orderJoined_shape, Lib.dropUnreachable_shape, Lib.postNotice_shape, Lib.raiseAccessor_shape,
    Lib.clearHeldNotice_shape, Lib.updateLock_shape]
  rw [Lib.foldl_shape _ (fun l o => Lib.faultedOrder_shape g o l)]
  simp

@[simp] theorem Lib.prepare_shape (g : Settings) (x : AccId) (r : Request) (l : Lib) :
    (l.prepare g x r).1.shape = l.shape := by
  unfold Lib.prepare
  dsimp only
  (repeat' split) <;> simp

@[simp] theorem Lib.stage_shape (g : Settings) (x : AccId) (r : Request) (l : Lib) :
    (l.stage g x r).shape = l.shape := by
  unfold Lib.stage
  split
  · next h =>
    have := Lib.prepare_shape g x r l
    rw [h] at this
    split <;> simpa using this
  · next h =>
    have := Lib.prepare_shape g x r l
    rwa [h] at this

@[simp] theorem Lib.tryJob_shape (g : Settings) (l : Lib) (t : Nat) :
    (Lib.tryJob g l t).shape = l.shape := by
  unfold Lib.tryJob; (repeat' split) <;> simp

@[simp] theorem Lib.pass_shape (g : Settings) (l : Lib) :
    (l.pass g).shape = l.shape := by
  unfold Lib.pass; simp

@[simp] theorem Lib.passes_shape (g : Settings) (n : Nat) (l : Lib) : (Lib.passes g n l).shape = l.shape := by
  induction n generalizing l with
  | zero => rfl
  | succ n ih => unfold Lib.passes; dsimp only; split <;> simp [ih]

theorem Lib.displace_shape (g : Settings) (l m : Lib) (h : l.displace g = some m) : m.shape = l.shape := by
  unfold Lib.displace at h
  (repeat' split at h) <;> simp at h
  subst h
  (repeat' split) <;> simp

@[simp] theorem Lib.dispatch_shape (g : Settings) (n : Nat) (l : Lib) :
    (Lib.dispatch g n l).shape = l.shape := by
  induction n generalizing l with
  | zero => rfl
  | succ n ih =>
    unfold Lib.dispatch
    dsimp only
    split
    · next h => rw [ih, Lib.displace_shape g _ _ h, Lib.passes_shape]
    · simp

@[simp] theorem Lib.importOrWait_shape (g : Settings) (k : Nat) (s : Serial) (make : Lib → Lib)
    (h : ∀ l, (make l).shape = l.shape) (l : Lib) : (l.importOrWait g k s make).shape = l.shape := by
  unfold Lib.importOrWait
  split
  · simp
  · split <;> simp [h]

@[simp] theorem Lib.claimSlot_shape (g : Settings) (k : Nat) (s : Serial) (t : Nat) (l : Lib) :
    (l.claimSlot g k s t).shape = l.shape := by
  unfold Lib.claimSlot; simp
@[simp] theorem Lib.settleSlot_shape (g : Settings) (l : Lib) (k : Nat) :
    (Lib.settleSlot g l k).shape = l.shape := by
  unfold Lib.settleSlot; (repeat' split) <;> simp

@[simp] theorem Lib.scan_shape (g : Settings) (l : Lib) :
    (l.scan g).shape = l.shape := by
  unfold Lib.scan; simp

@[simp] theorem Lib.postNoticeFor_shape (g : Settings) (r : Raising) (l : Lib) :
    (l.postNoticeFor g r).shape = l.shape := by
  unfold Lib.postNoticeFor; (repeat' split) <;> simp

@[simp] theorem Lib.act_shape (g : Settings) (l : Lib) (r : Raising) :
    (Lib.act g l r).shape = l.shape := by
  unfold Lib.act; (repeat' split) <;> simp

@[simp] theorem Lib.makeRuns_shape (g : Settings) (rs : List Span) (l : Lib) :
    (Lib.makeRuns g rs l).shape = l.shape := by
  induction rs generalizing l with
  | nil => rfl
  | cons c cs ih =>
    unfold Lib.makeRuns
    split
    · rw [ih]
      have := Lib.createAudit_shape g c false l
      simpa [Lib.shape] using this
    · rfl

@[simp] theorem Lib.offerEntries_shape (g : Settings) (l : Lib) :
    (l.offerEntries g).shape = l.shape := by
  unfold Lib.offerEntries; simp

@[simp] theorem Lib.settleOne_shape (g : Settings) (l : Lib) : (l.settleOne g).shape = l.shape := by
  unfold Lib.settleOne
  split
  · exact Lib.offerEntries_shape g _
  · split
    · exact Lib.offerPlaces_shape g l
    · split
      · exact Lib.offerManual_shape g _ _
      · exact Lib.dispatch_shape g _ l

@[simp] theorem Lib.quiesce_shape (g : Settings) (n : Nat) (l : Lib) : (Lib.quiesce g n l).shape = l.shape := by
  induction n generalizing l with
  | zero => rfl
  | succ n ih => unfold Lib.quiesce; split <;> simp [ih]

@[simp] theorem Lib.rounds_shape (g : Settings) (n : Nat) (l : Lib) : (Lib.rounds g n l).shape = l.shape := by
  induction n generalizing l with
  | zero => rfl
  | succ n ih =>
    unfold Lib.rounds
    dsimp only
    split
    · simp
    · rw [ih, Lib.foldl_shape _ (fun l r => Lib.act_shape g l r)]
      exact Lib.quiesce_shape g 64 l

@[simp] theorem Lib.settle_shape (g : Settings) (l : Lib) : (l.settle g).shape = l.shape :=
  Lib.rounds_shape g 16 l

end Sys2Proof.Machine
end

