-- ==== Sys2Proof/Laws/EventShape.lean ====
section
/-! SUPPORT. The events and commands keep the shape of the records (Safety): one lemma per operation. -/

namespace Sys2Proof.Machine

@[simp] theorem Lib.clampAcc_shape (x : AccId) (l : Lib) :
    (l.clampAcc x).shape = l.shape := by
  unfold Lib.clampAcc; simp

@[simp] theorem Lib.startHoming_shape (g : Settings) (x : AccId) (l : Lib) :
    (l.startHoming g x).shape = l.shape := by
  unfold Lib.startHoming; dsimp only; (repeat' split) <;> simp

@[simp] theorem Lib.freezeHoming_shape (x : AccId) (l : Lib) :
    (l.freezeHoming x).shape = l.shape := by
  unfold Lib.freezeHoming; simp

@[simp] theorem Lib.postSlots_shape (g : Settings) (l : Lib) :
    (l.postSlots g).shape = l.shape := by
  unfold Lib.postSlots
  rw [Lib.updateRemove_shape]
  apply Lib.foldl_shape
  intro l k
  split <;> simp

@[simp] theorem Lib.formatClear_shape (g : Settings) (l : Lib) :
    (l.formatClear g).shape = l.shape := by
  unfold Lib.formatClear; (repeat' split) <;> simp <;> simp [Lib.shape]

@[simp] theorem Lib.enterReady_shape (g : Settings) (l : Lib) :
    (l.enterReady g).shape = l.shape := by
  unfold Lib.enterReady; dsimp only; (repeat' split) <;> simp <;> simp [Lib.shape]

@[simp] theorem Lib.beginAudits_shape (g : Settings) (l : Lib) :
    (l.beginAudits g).shape = l.shape := by
  unfold Lib.beginAudits; (repeat' split) <;> simp <;> simp [Lib.shape]

@[simp] theorem Lib.opened_shape (g : Settings) (l : Lib) :
    (l.opened g).shape = l.shape := by
  unfold Lib.opened
  dsimp only
  split
  · rw [Lib.settle_shape, Lib.formatClear_shape]; rfl
  · rfl

@[simp] theorem Lib.dropClaimOrder_shape (g : Settings) (t : Nat) (l : Lib) :
    (l.dropClaimOrder g t).shape = l.shape := by
  unfold Lib.dropClaimOrder; (repeat' split) <;> simp

@[simp] theorem Lib.claimRemoved_shape (g : Settings) (t : Nat) (l : Lib) :
    (l.claimRemoved g t).shape = l.shape := by
  unfold Lib.claimRemoved; dsimp only; (repeat' split) <;> simp

@[simp] theorem Lib.outboundRemoved_shape (g : Settings) (k : Nat) (label : Option Serial) (l : Lib) :
    (l.outboundRemoved g k label).shape = l.shape := by
  unfold Lib.outboundRemoved; (repeat' split) <;> simp

@[simp] theorem Lib.claimMoved_shape (g : Settings) (t : Nat) (l : Lib) :
    (l.claimMoved g t).shape = l.shape := by
  unfold Lib.claimMoved; dsimp only; (repeat' split) <;> simp

@[simp] theorem Lib.slotReport_shape (g : Settings) (k : Nat) (seen : Reading) (l : Lib) :
    (l.slotReport g k seen).shape = l.shape := by
  unfold Lib.slotReport; dsimp only; (repeat' split) <;> simp

@[simp] theorem Lib.stopAtStation_shape (x : AccId) (l : Lib) :
    (l.stopAtStation x).shape = l.shape := by
  unfold Lib.stopAtStation; split <;> simp

@[simp] theorem Lib.doorOpened_shape (g : Settings) (l : Lib) :
    (l.doorOpened g).shape = l.shape := by
  unfold Lib.doorOpened; (repeat' split) <;> simp <;> simp [Lib.shape]

@[simp] theorem Lib.goOn_shape (g : Settings) (x : AccId) (l : Lib) :
    (l.goOn g x).shape = l.shape := by
  unfold Lib.goOn; split <;> simp

@[simp] theorem Lib.doorClosed_shape (g : Settings) (l : Lib) :
    (l.doorClosed g).shape = l.shape := by
  unfold Lib.doorClosed; (repeat' split) <;> simp <;> simp [Lib.shape]

@[simp] theorem Lib.haltAcc_shape (x : AccId) (l : Lib) :
    (l.haltAcc x).shape = l.shape := by
  unfold Lib.haltAcc; split <;> simp

@[simp] theorem Lib.forgetResume_shape (x : AccId) (l : Lib) :
    (l.forgetResume x).shape = l.shape := by
  unfold Lib.forgetResume; split <;> simp

@[simp] theorem Lib.restartQuery_shape (g : Settings) (x : AccId) (l : Lib) :
    (l.restartQuery g x).shape = l.shape := by
  unfold Lib.restartQuery; split <;> simp

@[simp] theorem Lib.interlock_shape (g : Settings) (l : Lib) :
    (l.interlock g).shape = l.shape := by
  unfold Lib.interlock
  dsimp only
  rw [Lib.updateLock_shape]
  refine Eq.trans ((Lib.restartQuery_shape g .b _).trans (Lib.restartQuery_shape g .a _)) ?_
  refine Eq.trans (Lib.foldl_shape (fun l x => l.haltAcc x) (by simp) _ _) ?_
  rw [Lib.forgetResume_shape, Lib.forgetResume_shape]
  exact (Lib.withdrawStaged_shape g .b _).trans (Lib.withdrawStaged_shape g .a _)

@[simp] theorem Lib.serviceOpened_shape (g : Settings) (l : Lib) :
    (l.serviceOpened g).shape = l.shape := by
  unfold Lib.serviceOpened; dsimp only; (repeat' split) <;> simp <;> simp [Lib.shape]

@[simp] theorem Lib.serviceClosed_shape (g : Settings) (l : Lib) :
    (l.serviceClosed g).shape = l.shape := by
  unfold Lib.serviceClosed; (repeat' split) <;> simp <;> simp [Lib.shape]

@[simp] theorem Lib.setPos_shape (x : AccId) (c : Nat) (l : Lib) :
    (l.setPos x c).shape = l.shape := by
  unfold Lib.setPos; simp

@[simp] theorem Lib.setProgress_shape (x : AccId) (p : Progress) (l : Lib) :
    (l.setProgress x p).shape = l.shape := by
  unfold Lib.setProgress; simp

@[simp] theorem Lib.restartTimer_shape (g : Settings) (x : AccId) (l : Lib) :
    (l.restartTimer g x).shape = l.shape := by
  unfold Lib.restartTimer; simp

@[simp] theorem Lib.pickDone_shape (g : Settings) (x : AccId) (l : Lib) :
    (l.pickDone g x).shape = l.shape := by
  unfold Lib.pickDone; simp

@[simp] theorem Lib.finish_shape (g : Settings) (t : Option Nat) (c : Code) (l : Lib) :
    (l.finish g t c).shape = l.shape := by
  unfold Lib.finish; split <;> simp

@[simp] theorem Lib.pickedCell_shape (g : Settings) (x : AccId) (o : Order) (n : Nat) (label : Option Serial) (l : Lib) :
    (l.pickedCell g x o n label).shape = l.shape := by
  unfold Lib.pickedCell; dsimp only; (repeat' split) <;> simp

@[simp] theorem Lib.pickedSlot_shape (g : Settings) (x : AccId) (o : Order) (k : Nat) (l : Lib) :
    (l.pickedSlot g x o k).shape = l.shape := by
  unfold Lib.pickedSlot; split <;> simp

@[simp] theorem Lib.pickedDrive_shape (g : Settings) (x : AccId) (o : Order) (d : Nat) (l : Lib) :
    (l.pickedDrive g x o d).shape = l.shape := by
  unfold Lib.pickedDrive; dsimp only; (repeat' split) <;> simp

@[simp] theorem Lib.pickedReport_shape (g : Settings) (x : AccId) (n : Nat) (p : Place) (label : Option Serial) (l : Lib) :
    (l.pickedReport g x n p label).shape = l.shape := by
  unfold Lib.pickedReport; (repeat' split) <;> simp

@[simp] theorem Lib.emptyCell_shape (g : Settings) (x : AccId) (o : Order) (n : Nat) (l : Lib) :
    (l.emptyCell g x o n).shape = l.shape := by
  unfold Lib.emptyCell; dsimp only; (repeat' split) <;> simp

@[simp] theorem Lib.emptySlotPick_shape (g : Settings) (x : AccId) (o : Order) (k : Nat) (l : Lib) :
    (l.emptySlotPick g x o k).shape = l.shape := by
  unfold Lib.emptySlotPick; split <;> simp

@[simp] theorem Lib.emptyDrive_shape (g : Settings) (x : AccId) (o : Order) (d : Nat) (l : Lib) :
    (l.emptyDrive g x o d).shape = l.shape := by
  unfold Lib.emptyDrive; split <;> simp

@[simp] theorem Lib.pickEmptyReport_shape (g : Settings) (x : AccId) (n : Nat) (p : Place) (l : Lib) :
    (l.pickEmptyReport g x n p).shape = l.shape := by
  unfold Lib.pickEmptyReport; (repeat' split) <;> simp

@[simp] theorem Lib.placedCell_shape (g : Settings) (o : Order) (c : Nat) (l : Lib) :
    (l.placedCell g o c).shape = l.shape := by
  unfold Lib.placedCell; split <;> simp

@[simp] theorem Lib.placedDrive_shape (g : Settings) (o : Order) (d : Nat) (l : Lib) :
    (l.placedDrive g o d).shape = l.shape := by
  unfold Lib.placedDrive; (repeat' split) <;> simp

@[simp] theorem Lib.placedSlot_shape (g : Settings) (o : Order) (k : Nat) (l : Lib) :
    (l.placedSlot g o k).shape = l.shape := by
  unfold Lib.placedSlot; dsimp only; (repeat' split) <;> simp

@[simp] theorem Lib.placedReport_shape (g : Settings) (x : AccId) (n : Nat) (p : Place) (l : Lib) :
    (l.placedReport g x n p).shape = l.shape := by
  unfold Lib.placedReport; (repeat' split) <;> simp

@[simp] theorem Lib.blockedCell_shape (g : Settings) (x : AccId) (o : Order) (c : Nat) (l : Lib) :
    (l.blockedCell g x o c).shape = l.shape := by
  unfold Lib.blockedCell; split <;> simp

@[simp] theorem Lib.blockedDrive_shape (g : Settings) (x : AccId) (o : Order) (d : Nat) (l : Lib) :
    (l.blockedDrive g x o d).shape = l.shape := by
  unfold Lib.blockedDrive; split <;> simp

@[simp] theorem Lib.blockedSlot_shape (g : Settings) (o : Order) (k : Nat) (l : Lib) :
    (l.blockedSlot g o k).shape = l.shape := by
  unfold Lib.blockedSlot; split <;> simp

@[simp] theorem Lib.placeBlockedReport_shape (g : Settings) (x : AccId) (n : Nat) (p : Place) (l : Lib) :
    (l.placeBlockedReport g x n p).shape = l.shape := by
  unfold Lib.placeBlockedReport; (repeat' split) <;> simp

@[simp] theorem Lib.takeIn_shape (g : Settings) (n : Nat) (label : Option Serial) (l : Lib) :
    (l.takeIn g n label).shape = l.shape := by
  unfold Lib.takeIn; (repeat' split) <;> simp

@[simp] theorem Lib.cellFound_shape (g : Settings) (n : Nat) (seen : Reading) (l : Lib) :
    (l.cellFound g n seen).shape = l.shape := by
  unfold Lib.cellFound; (repeat' split) <;> simp

@[simp] theorem Lib.cellSeenReport_shape (g : Settings) (x : AccId) (n cell column : Nat) (seen : Reading) (l : Lib) :
    (l.cellSeenReport g x n cell column seen).shape = l.shape := by
  unfold Lib.cellSeenReport; (repeat' split) <;> simp

@[simp] theorem Lib.auditColumnDone_shape (g : Settings) (t : Nat) (l : Lib) :
    (l.auditColumnDone g t).shape = l.shape := by
  unfold Lib.auditColumnDone; (repeat' split) <;> simp

@[simp] theorem Lib.scanDoneReport_shape (g : Settings) (x : AccId) (n column : Nat) (l : Lib) :
    (l.scanDoneReport g x n column).shape = l.shape := by
  unfold Lib.scanDoneReport; (repeat' split) <;> simp

@[simp] theorem Lib.moveDoneReport_shape (g : Settings) (x : AccId) (n column : Nat) (l : Lib) :
    (l.moveDoneReport g x n column).shape = l.shape := by
  unfold Lib.moveDoneReport; (repeat' split) <;> simp

@[simp] theorem Lib.faultReport_shape (g : Settings) (x : AccId) (column code : Nat) (l : Lib) :
    (l.faultReport g x column code).shape = l.shape := by
  unfold Lib.faultReport; split <;> simp

@[simp] theorem Lib.stepExpired_shape (g : Settings) (x : AccId) (l : Lib) :
    (l.stepExpired g x).shape = l.shape := by
  unfold Lib.stepExpired; (repeat' split) <;> simp

@[simp] theorem Lib.gripperLost_shape (g : Settings) (x : AccId) (l : Lib) :
    (l.gripperLost g x).shape = l.shape := by
  unfold Lib.gripperLost; dsimp only; (repeat' split) <;> simp

theorem Lib.settleGripper_shape (g : Settings) (x : AccId) (seen : Reading) (l m : Lib)
    (h : l.settleGripper g x seen = some m) : m.shape = l.shape := by
  unfold Lib.settleGripper at h
  (repeat' split at h) <;> simp at h <;> subst h <;> simp

@[simp] theorem Lib.restoreReply_shape (g : Settings) (x : AccId) (column : Nat) (seen : Reading) (l : Lib) :
    (l.restoreReply g x column seen).shape = l.shape := by
  unfold Lib.restoreReply
  split
  · rfl
  · next h => simp [Lib.settleGripper_shape g x seen _ _ h]

@[simp] theorem Lib.reconcileReply_shape (g : Settings) (x : AccId) (column : Nat) (seen : Reading) (l : Lib) :
    (l.reconcileReply g x column seen).shape = l.shape := by
  unfold Lib.reconcileReply
  split
  · simp
  · next h =>
    dsimp only
    (repeat' split) <;> simp [Lib.settleGripper_shape g x seen _ _ h]

@[simp] theorem Lib.resumeOrder_shape (g : Settings) (x : AccId) (o : Order) (l : Lib) :
    (l.resumeOrder g x o).shape = l.shape := by
  unfold Lib.resumeOrder; split <;> simp

@[simp] theorem Lib.resumeReply_shape (g : Settings) (x : AccId) (column : Nat) (seen : Reading) (l : Lib) :
    (l.resumeReply g x column seen).shape = l.shape := by
  unfold Lib.resumeReply; dsimp only; (repeat' split) <;> simp

@[simp] theorem Lib.gripperReport_shape (g : Settings) (x : AccId) (n column : Nat) (held : Reading) (l : Lib) :
    (l.gripperReport g x n column held).shape = l.shape := by
  unfold Lib.gripperReport; (repeat' split) <;> simp

@[simp] theorem Lib.resumeQuery_shape (g : Settings) (x : AccId) (l : Lib) :
    (l.resumeQuery g x).shape = l.shape := by
  unfold Lib.resumeQuery; split <;> simp

@[simp] theorem Lib.faultServing_shape (g : Settings) (d : Nat) (c : Code) (l : Lib) :
    (l.faultServing g d c).shape = l.shape := by
  unfold Lib.faultServing; (repeat' split) <;> simp

@[simp] theorem Lib.failThreading_shape (g : Settings) (d code : Nat) (c : Code) (l : Lib) :
    (l.failThreading g d code c).shape = l.shape := by
  unfold Lib.failThreading; dsimp only; (repeat' split) <;> simp

@[simp] theorem Lib.failRewinding_shape (g : Settings) (d code : Nat) (l : Lib) :
    (l.failRewinding g d code).shape = l.shape := by
  unfold Lib.failRewinding; simp

@[simp] theorem Lib.failMounted_shape (g : Settings) (d code : Nat) (l : Lib) :
    (l.failMounted g d code).shape = l.shape := by
  unfold Lib.failMounted; dsimp only; (repeat' split) <;> simp

@[simp] theorem Lib.failManual_shape (g : Settings) (d code : Nat) (l : Lib) :
    (l.failManual g d code).shape = l.shape := by
  unfold Lib.failManual; dsimp only; (repeat' split) <;> simp

@[simp] theorem Lib.driveFaulted_shape (g : Settings) (d code : Nat) (l : Lib) :
    (l.driveFaulted g d code).shape = l.shape := by
  unfold Lib.driveFaulted; dsimp only; (repeat' split) <;> simp

@[simp] theorem Lib.attentionDone_shape (g : Settings) (d : Nat) (toShelf : Bool) (l : Lib) :
    (l.attentionDone g d toShelf).shape = l.shape := by
  unfold Lib.attentionDone; dsimp only; (repeat' split) <;> simp

@[simp] theorem Lib.unloadStray_shape (g : Settings) (d : Nat) (l : Lib) :
    (l.unloadStray g d).shape = l.shape := by
  unfold Lib.unloadStray; simp

@[simp] theorem Lib.loadedThreading_shape (g : Settings) (d : Nat) (l : Lib) :
    (l.loadedThreading g d).shape = l.shape := by
  unfold Lib.loadedThreading; dsimp only; (repeat' split) <;> simp

@[simp] theorem Lib.loadedManual_shape (g : Settings) (d : Nat) (label : Option Serial) (l : Lib) :
    (l.loadedManual g d label).shape = l.shape := by
  unfold Lib.loadedManual; (repeat' split) <;> simp

@[simp] theorem Lib.loadedReport_shape (g : Settings) (d : Nat) (raw : Option Serial) (l : Lib) :
    (l.loadedReport g d raw).shape = l.shape := by
  unfold Lib.loadedReport; split <;> simp

@[simp] theorem Lib.loadFailedReport_shape (g : Settings) (d : Nat) (l : Lib) :
    (l.loadFailedReport g d).shape = l.shape := by
  unfold Lib.loadFailedReport; split <;> simp

@[simp] theorem Lib.addErrors_shape (d errors : Nat) (l : Lib) :
    (l.addErrors d errors).shape = l.shape := by
  unfold Lib.addErrors; split <;> simp

@[simp] theorem Lib.askHolding_shape (d : Nat) (l : Lib) :
    (l.askHolding d).shape = l.shape := by
  unfold Lib.askHolding; simp

@[simp] theorem Lib.endCleaning_shape (g : Settings) (d : Nat) (l : Lib) :
    (l.endCleaning g d).shape = l.shape := by
  unfold Lib.endCleaning; dsimp only; (repeat' split) <;> simp

@[simp] theorem Lib.dismountDrive_shape (g : Settings) (d : Nat) (l : Lib) :
    (l.dismountDrive g d).shape = l.shape := by
  unfold Lib.dismountDrive; split <;> simp

@[simp] theorem Lib.loadFailedCode_shape (d : Nat) (l : Lib) :
    (l.loadFailedCode d).shape = l.shape := by
  unfold Lib.loadFailedCode; split <;> simp

@[simp] theorem Lib.unloadedReport_shape (g : Settings) (d errors : Nat) (l : Lib) :
    (l.unloadedReport g d errors).shape = l.shape := by
  unfold Lib.unloadedReport; dsimp only; (repeat' split) <;> simp

@[simp] theorem Lib.unloadPressedReport_shape (g : Settings) (d : Nat) (l : Lib) :
    (l.unloadPressedReport g d).shape = l.shape := by
  unfold Lib.unloadPressedReport; dsimp only; (repeat' split) <;> simp

@[simp] theorem Lib.removedRecorded_shape (g : Settings) (d : Nat) (s : Serial) (l : Lib) :
    (l.removedRecorded g d s).shape = l.shape := by
  unfold Lib.removedRecorded; dsimp only; (repeat' split) <;> simp

@[simp] theorem Lib.reelRemovedReport_shape (g : Settings) (d : Nat) (l : Lib) :
    (l.reelRemovedReport g d).shape = l.shape := by
  unfold Lib.reelRemovedReport; (repeat' split) <;> simp

@[simp] theorem Lib.cleanNeededReport_shape (d : Nat) (l : Lib) :
    (l.cleanNeededReport d).shape = l.shape := by
  unfold Lib.cleanNeededReport; split <;> simp

@[simp] theorem Lib.offlineReport_shape (g : Settings) (d : Nat) (l : Lib) :
    (l.offlineReport g d).shape = l.shape := by
  unfold Lib.offlineReport; dsimp only; (repeat' split) <;> simp

@[simp] theorem Lib.onlineReport_shape (d : Nat) (l : Lib) :
    (l.onlineReport d).shape = l.shape := by
  unfold Lib.onlineReport; dsimp only; (repeat' split) <;> simp

@[simp] theorem Lib.strayFound_shape (g : Settings) (d : Nat) (loaded : Bool) (l : Lib) :
    (l.strayFound g d loaded).shape = l.shape := by
  unfold Lib.strayFound; split <;> simp

@[simp] theorem Lib.holdingTaken_shape (g : Settings) (d : Nat) (reply : HoldingReply) (l : Lib) :
    (l.holdingTaken g d reply).shape = l.shape := by
  unfold Lib.holdingTaken; split <;> simp

@[simp] theorem Lib.loseAtDrive_shape (g : Settings) (d : Nat) (l : Lib) :
    (l.loseAtDrive g d).shape = l.shape := by
  unfold Lib.loseAtDrive; dsimp only; (repeat' split) <;> simp

@[simp] theorem Lib.reelFound_shape (g : Settings) (d : Nat) (reply : HoldingReply) (s : Serial) (loaded : Bool) (l : Lib) :
    (l.reelFound g d reply s loaded).shape = l.shape := by
  unfold Lib.reelFound; dsimp only; (repeat' split) <;> simp

@[simp] theorem Lib.holdingReconcile_shape (g : Settings) (d : Nat) (reply : HoldingReply) (l : Lib) :
    (l.holdingReconcile g d reply).shape = l.shape := by
  unfold Lib.holdingReconcile; (repeat' split) <;> simp

@[simp] theorem Lib.holdingReport_shape (g : Settings) (d : Nat) (reply : HoldingReply) (l : Lib) :
    (l.holdingReport g d reply).shape = l.shape := by
  unfold Lib.holdingReport; dsimp only; (repeat' split) <;> simp

@[simp] theorem Lib.threadingExpired_shape (g : Settings) (d : Nat) (l : Lib) :
    (l.threadingExpired g d).shape = l.shape := by
  unfold Lib.threadingExpired; split <;> simp

@[simp] theorem Lib.unloadExpired_shape (g : Settings) (d : Nat) (l : Lib) :
    (l.unloadExpired g d).shape = l.shape := by
  unfold Lib.unloadExpired; split <;> simp

@[simp] theorem Lib.reconcileExpired_shape (g : Settings) (d : Nat) (l : Lib) :
    (l.reconcileExpired g d).shape = l.shape := by
  unfold Lib.reconcileExpired; split <;> simp

@[simp] theorem Lib.freedIfEligible_shape (g : Settings) (l was : Lib) (d : Nat) :
    (l.freedIfEligible g was d).shape = l.shape := by
  unfold Lib.freedIfEligible; split <;> simp

@[simp] theorem Lib.varyOff_shape (g : Settings) (d : Nat) (l : Lib) :
    (l.varyOff g d).shape = l.shape := by
  unfold Lib.varyOff; (repeat' split) <;> simp

@[simp] theorem Lib.varyOn_shape (g : Settings) (d : Nat) (l : Lib) :
    (l.varyOn g d).shape = l.shape := by
  unfold Lib.varyOn; dsimp only; (repeat' split) <;> simp

@[simp] theorem Lib.pathFreed_shape (p : Nat) (l : Lib) :
    (l.pathFreed p).shape = l.shape := by
  unfold Lib.pathFreed; simp

@[simp] theorem Lib.enterFirst_shape (g : Settings) (t : Nat) (l : Lib) :
    (l.enterFirst g t).shape = l.shape := by
  unfold Lib.enterFirst; split <;> simp

@[simp] theorem Lib.admitMount_shape (g : Settings) (f : MountBlock) (v : Volume) (l : Lib) :
    (l.admitMount g f v).shape = l.shape := by
  unfold Lib.admitMount; dsimp only; (repeat' split) <;> simp

theorem Lib.cancel_shape (g : Settings) (r : Request) (l m : Lib) (h : l.cancel g r = some m) :
    m.shape = l.shape := by
  unfold Lib.cancel at h
  dsimp only at h
  (repeat' split at h) <;> simp at h <;> subst h <;> simp

@[simp] theorem Lib.stallExpired_shape (g : Settings) (t : Nat) (l : Lib) :
    (l.stallExpired g t).shape = l.shape := by
  unfold Lib.stallExpired; dsimp only; (repeat' split) <;> simp

@[simp] theorem Lib.updateVolume_shape (g : Settings) (s : Serial) (f : UpdateBlock) (l : Lib) :
    (l.updateVolume g s f).shape = l.shape := by
  unfold Lib.updateVolume; split <;> simp

@[simp] theorem Lib.retire_shape (g : Settings) (s : Serial) (l : Lib) :
    (l.retire g s).shape = l.shape := by
  unfold Lib.retire; simp

@[simp] theorem Lib.noteStep_shape (n : Nat) (l : Lib) : (l.noteStep n).shape = l.shape := rfl

@[simp] theorem Lib.stepPast_shape (n : Nat) (l : Lib) :
    (l.stepPast n).shape = l.shape := by
  unfold Lib.stepPast; (repeat' split) <;> simp

@[simp] theorem Lib.acceptPrompt_shape (g : Settings) (x : Nat × Prompt) (l : Lib) :
    (l.acceptPrompt g x).shape = l.shape := by
  unfold Lib.acceptPrompt; split <;> simp

@[simp] theorem Lib.refusePrompt_shape (g : Settings) (x : Nat × Prompt) (l : Lib) :
    (l.refusePrompt g x).shape = l.shape := by
  unfold Lib.refusePrompt; (repeat' split) <;> simp

@[simp] theorem Lib.donePrompt_shape (g : Settings) (x : Nat × Prompt) (l : Lib) :
    (l.donePrompt g x).shape = l.shape := by
  unfold Lib.donePrompt; split <;> simp

@[simp] theorem Lib.keyAct_shape (key : KeyName) (g : Settings) (x : Nat × Prompt) (l : Lib) :
    (l.keyAct key g x).shape = l.shape := by
  unfold Lib.keyAct; split <;> simp

@[simp] theorem Lib.keyChange_shape (key : KeyName) (g : Settings) (n : Nat) (l : Lib) :
    (l.keyChange key g n).shape = l.shape := by
  unfold Lib.keyChange; (repeat' split) <;> simp

@[simp] theorem Lib.sendAgain_shape (l : Lib) :
    (l.sendAgain).shape = l.shape := by
  unfold Lib.sendAgain; (repeat' split) <;> simp <;> simp [Lib.shape]

@[simp] theorem Lib.manualExpired_shape (g : Settings) (n : Nat) (l : Lib) :
    (l.manualExpired g n).shape = l.shape := by
  unfold Lib.manualExpired; (repeat' split) <;> simp

@[simp] theorem Lib.messageExpired_shape (n : Nat) (l : Lib) :
    (l.messageExpired n).shape = l.shape := by
  unfold Lib.messageExpired; (repeat' split) <;> simp

@[simp] theorem Lib.reAnnounced_shape (g : Settings) (n : Nat) (l : Lib) :
    (l.reAnnounced g n).shape = l.shape := by
  unfold Lib.reAnnounced; dsimp only; (repeat' split) <;> simp

@[simp] theorem Lib.addAccount_shape (a : Account) (l : Lib) :
    (l.addAccount a).shape = l.shape := by
  simp [Lib.addAccount, Lib.shape]

@[simp] theorem Lib.dropAccount_shape (n : Nat) (l : Lib) :
    (l.dropAccount n).shape = l.shape := by
  simp [Lib.dropAccount, Lib.shape]

@[simp] theorem Lib.accrueFrom_shape (n : Nat) (t : Clock) (l : Lib) :
    (l.accrueFrom n t).shape = l.shape := by
  simp [Lib.accrueFrom, Lib.shape]

@[simp] theorem Lib.settleMounted_shape (old new : Clock) (l : Lib) (r : Request) :
    (Lib.settleMounted old new l r).shape = l.shape := by
  unfold Lib.settleMounted; split <;> simp

@[simp] theorem Lib.settleClock_shape (old new : Clock) (l : Lib) :
    (l.settleClock old new).shape = l.shape := by
  unfold Lib.settleClock
  exact Lib.foldl_shape (fun l r => l.settleMounted old new r) (by simp) _ _

@[simp] theorem Lib.periodExpired_shape (g : Settings) (l : Lib) :
    (l.periodExpired g).shape = l.shape := by
  unfold Lib.periodExpired; (repeat' split) <;> simp <;> simp [Lib.shape]

@[simp] theorem Lib.moveDeadlines_shape (old new : Clock) (l : Lib) :
    (l.moveDeadlines old new).shape = l.shape := by
  unfold Lib.moveDeadlines; dsimp only
  (repeat' split) <;> (try rw [Lib.refresh_shape]) <;> simp [Lib.shape]

@[simp] theorem Lib.timersChanged_shape (old new : Settings) (l : Lib) :
    (l.timersChanged old new).shape = l.shape := by
  unfold Lib.timersChanged; (repeat' split) <;> simp <;> simp [Lib.shape]

theorem Lib.powered_shape (store : Store) (l : Lib) (h : l.shape = specShape) :
    (l.powered store).shape = specShape := by
  have hd : l.drives.length = 16 := congrArg Shape.drives h
  unfold Lib.powered
  split
  · simp [Lib.shape, specShape, PlaceUnit.powerOn, Lib.blank, PromptUnit.powerOn, Config.stationSlots,
      Config.promptSlots, hd]
  · simp [Lib.shape, specShape, PlaceUnit.powerOn, Lib.blank, PromptUnit.powerOn, Config.stationSlots,
      Config.promptSlots, Config.drives]

@[simp] theorem Lib.answers_shape (g : Settings) (doorOpen serviceOpen : Bool) (slots : List Reading) (l : Lib) :
    (l.answers g doorOpen serviceOpen slots).shape = l.shape := by
  unfold Lib.answers; (repeat' split) <;> simp

@[simp] theorem Lib.loseUndefined_shape (g : Settings) (l : Lib) (v : Volume) :
    (Lib.loseUndefined g l v).shape = l.shape := by
  unfold Lib.loseUndefined; (repeat' split) <;> simp

@[simp] theorem Lib.toShelf_shape (g : Settings) (s : Serial) (l : Lib) :
    (l.toShelf g s).shape = l.shape := by
  unfold Lib.toShelf; simp

@[simp] theorem Lib.settleStation_shape (g : Settings) (l : Lib) (v : Volume) :
    (Lib.settleStation g l v).shape = l.shape := by
  unfold Lib.settleStation; (repeat' split) <;> simp

@[simp] theorem Lib.queryDrive_shape (g : Settings) (l : Lib) (d : Nat) :
    (Lib.queryDrive g l d).shape = l.shape := by
  unfold Lib.queryDrive; split <;> simp

@[simp] theorem Lib.reconcile_shape (g : Settings) (l : Lib) :
    (l.reconcile g).shape = l.shape := by
  unfold Lib.reconcile; (repeat' split) <;> simp <;> simp [Lib.shape]

@[simp] theorem Lib.storeCheck_shape (g : Settings) (l : Lib) :
    (l.storeCheck g).shape = l.shape := by
  unfold Lib.storeCheck
  split
  · dsimp only
    rw [Lib.reconcile_shape]
    refine Eq.trans (Lib.evalLow_shape g _) (Eq.trans (Lib.placeAllOnScratch_shape _) ?_)
    simp [Lib.shape]
  · rfl

@[simp] theorem Lib.toAudits_shape (g : Settings) (l : Lib) :
    (l.toAudits g).shape = l.shape := by
  unfold Lib.toAudits; split <;> simp

@[simp] theorem Lib.startExpired_shape (g : Settings) (l : Lib) :
    (l.startExpired g).shape = l.shape := by
  unfold Lib.startExpired; (repeat' split) <;> simp <;> simp [Lib.shape]

@[simp] theorem Lib.clearPrompts_shape (test : Prompt → Bool) (l : Lib) :
    (l.clearPrompts test).shape = l.shape := by
  simp [Lib.clearPrompts, Lib.shape]

@[simp] theorem Lib.resetFree_shape (g : Settings) (t : Nat) (l : Lib) :
    (l.resetFree g t).shape = l.shape := by
  unfold Lib.resetFree; dsimp only; (repeat' split) <;> simp

@[simp] theorem Lib.retag_shape (old new : Nat) (l : Lib) :
    (l.retag old new).shape = l.shape := by
  unfold Lib.retag; (repeat' split) <;> simp <;> simp [Lib.shape]

@[simp] theorem Lib.convert_shape (g : Settings) (r : Request) (l : Lib) :
    (l.convert g r).shape = l.shape := by
  unfold Lib.convert; (repeat' split) <;> simp

@[simp] theorem Lib.resetRequest_shape (g : Settings) (x : List (Nat × Serial) × Lib) (t : Nat) :
    (Lib.resetRequest g x t).2.shape = x.2.shape := by
  unfold Lib.resetRequest
  (repeat' split) <;> simp

theorem Lib.resetRequests_shape (g : Settings) (ts : List Nat) (x : List (Nat × Serial) × Lib) :
    (ts.foldl (fun x t => Lib.resetRequest g x t) x).2.shape = x.2.shape := by
  induction ts generalizing x with
  | nil => rfl
  | cons t ts ih => rw [List.foldl_cons, ih, Lib.resetRequest_shape]

@[simp] theorem Lib.offerQuietly_shape (g : Settings) (n : Nat) (l : Lib) :
    (Lib.offerQuietly g n l).shape = l.shape := by
  induction n generalizing l with
  | zero => rfl
  | succ n ih => unfold Lib.offerQuietly; split <;> simp [ih]

@[simp] theorem Lib.presentAfterReset_shape (was tags : List Nat) (l : Lib) :
    (l.presentAfterReset was tags).shape = l.shape := by
  unfold Lib.presentAfterReset; (repeat' split) <;> simp

@[simp] theorem Lib.removeAfterReset_shape (g : Settings) (l was : Lib) :
    (l.removeAfterReset g was).shape = l.shape := by
  unfold Lib.removeAfterReset; split <;> simp

theorem Lib.linkReset_shape (g : Settings) (l : Lib) (h : l.shape = specShape) :
    (l.linkReset g).shape = specShape := by
  have ha : l.clearAttention.shape = specShape := by
    simp only [Lib.shape, specShape, Shape.mk.injEq] at h
    simp [Lib.shape, specShape, h]
  have hf : ∀ (xs : List (Nat × Serial)) (l : Lib),
      (xs.foldl (fun l y => l.handOver g y.1 y.2) l).shape = l.shape := by
    intro xs
    induction xs with
    | nil => intro l; rfl
    | cons y ys ih => intro l; rw [List.foldl_cons, ih, Lib.handOver_shape]
  simp only [Lib.linkReset, hf, Lib.removeAfterReset_shape, Lib.presentAfterReset_shape, Lib.offerQuietly_shape, Lib.clearPrompts_shape,
    Lib.syncAllScratch_shape, Lib.resetRequests_shape, ha]

@[simp] theorem Lib.tick_shape (l : Lib) :
    (l.tick).shape = l.shape := by
  simp [Lib.tick, Lib.shape]

end Sys2Proof.Machine
end

