-- ==== Sys2Proof/Laws/Fixed.lean ====
section
/-! SUPPORT. The operations that the settling of a step is made of keep what `Lib.fixed` lists (Safety): one
lemma per operation. -/

namespace Sys2Proof.Machine
@[simp] theorem Lib.foldl_fixed {α : Type} (f : Lib → α → Lib) (h : ∀ l a, (f l a).fixed = l.fixed) (xs : List α) (l : Lib) :
    (xs.foldl f l).fixed = l.fixed := by
  induction xs generalizing l with
  | nil => rfl
  | cons x xs ih => rw [List.foldl_cons, ih, h]

@[simp] theorem Lib.send_fixed (m : Msg) (l : Lib) :
    (l.send m).fixed = l.fixed := by
  simp [Lib.send, Lib.fixed]

@[simp] theorem Lib.raise_fixed (r : Raising) (l : Lib) :
    (l.raise r).fixed = l.fixed := by
  simp [Lib.raise, Lib.fixed]

@[simp] theorem Lib.raisePlain_fixed (s : Source) (l : Lib) :
    (l.raisePlain s).fixed = l.fixed := by
  simp [Lib.raisePlain, Lib.fixed]

@[simp] theorem Lib.raiseDrive_fixed (s : Source) (d : Nat) (l : Lib) :
    (l.raiseDrive s d).fixed = l.fixed := by
  simp [Lib.raiseDrive, Lib.fixed]

@[simp] theorem Lib.raiseRequest_fixed (s : Source) (t : Nat) (l : Lib) :
    (l.raiseRequest s t).fixed = l.fixed := by
  simp [Lib.raiseRequest, Lib.fixed]

@[simp] theorem Lib.raiseColumns_fixed (s : Source) (c : Option Span) (l : Lib) :
    (l.raiseColumns s c).fixed = l.fixed := by
  simp [Lib.raiseColumns, Lib.fixed]

@[simp] theorem Lib.raiseAccessor_fixed (x : AccId) (c : Span) (l : Lib) :
    (l.raiseAccessor x c).fixed = l.fixed := by
  unfold Lib.raiseAccessor; simp

@[simp] theorem Lib.raiseMissing_fixed (s : Serial) (c : Option Span) (l : Lib) :
    (l.raiseMissing s c).fixed = l.fixed := by
  unfold Lib.raiseMissing; simp

@[simp] theorem Lib.wake_fixed (l : Lib) :
    (l.wake).fixed = l.fixed := by
  simp [Lib.wake, Lib.fixed]

@[simp] theorem Lib.notePlaceFreed_fixed (l : Lib) :
    (l.notePlaceFreed).fixed = l.fixed := by
  simp [Lib.notePlaceFreed, Lib.fixed]

@[simp] theorem Lib.noteEntryFreed_fixed (l : Lib) :
    (l.noteEntryFreed).fixed = l.fixed := by
  simp [Lib.noteEntryFreed, Lib.fixed]

@[simp] theorem Lib.noteOffer_fixed (d : Nat) (l : Lib) :
    (l.noteOffer d).fixed = l.fixed := by
  simp [Lib.noteOffer, Lib.fixed]

@[simp] theorem Lib.updVol_fixed (s : Serial) (f : Volume → Volume) (l : Lib) :
    (l.updVol s f).fixed = l.fixed := by
  simp [Lib.updVol, Lib.fixed]

@[simp] theorem Lib.addVol_fixed (v : Volume) (l : Lib) :
    (l.addVol v).fixed = l.fixed := by
  simp [Lib.addVol, Lib.fixed]

@[simp] theorem Lib.dropVol_fixed (s : Serial) (l : Lib) :
    (l.dropVol s).fixed = l.fixed := by
  simp [Lib.dropVol, Lib.fixed]

theorem Lib.updDrive_fixed (d : Nat) (f : Drive → Drive) (l : Lib) (h : ∀ v, (f v).defn = v.defn) :
    (l.updDrive d f).fixed = l.fixed := by
  have : (l.drives.modify d f).map Drive.defn = l.drives.map Drive.defn := by
    apply List.ext_getElem? ; intro i
    simp only [List.getElem?_map, List.getElem?_modify]
    cases l.drives[i]? with
    | none => rfl
    | some v => by_cases hd : d = i <;> simp [hd, h]
  simp [Lib.fixed, this]

@[simp] theorem Lib.updReq_fixed (t : Nat) (f : Request → Request) (l : Lib) :
    (l.updReq t f).fixed = l.fixed := by
  simp [Lib.updReq, Lib.fixed]

@[simp] theorem Lib.updAcc_fixed (x : AccId) (f : Accessor → Accessor) (l : Lib) :
    (l.updAcc x f).fixed = l.fixed := by
  cases x <;> rfl

@[simp] theorem Lib.updAcct_fixed (n : Nat) (f : Account → Account) (l : Lib) :
    (l.updAcct n f).fixed = l.fixed := by
  simp [Lib.updAcct, Lib.fixed]

@[simp] theorem Lib.setCause_fixed (n : Nat) (l : Lib) :
    (l.setCause n).fixed = l.fixed := by
  simp [Lib.setCause, Lib.fixed]

@[simp] theorem Lib.addLinked_fixed (s : Source) (l : Lib) :
    (l.addLinked s).fixed = l.fixed := by
  simp [Lib.addLinked, Lib.fixed]

@[simp] theorem Lib.clearAttention_fixed (l : Lib) :
    (l.clearAttention).fixed = l.fixed := by
  simp [Lib.clearAttention, Lib.fixed]

@[simp] theorem Lib.setPrompt_fixed (k : Nat) (p : Option Prompt) (l : Lib) :
    (l.setPrompt k p).fixed = l.fixed := by
  simp [Lib.setPrompt, Lib.fixed]

@[simp] theorem Lib.display_fixed (x : Nat × Prompt) (force : Bool) (l : Lib) :
    (l.display x force).fixed = l.fixed := by
  simp [Lib.display, Lib.fixed]

@[simp] theorem Lib.presentFirst_fixed (l : Lib) :
    (l.presentFirst).fixed = l.fixed := by
  unfold Lib.presentFirst; (repeat' split) <;> simp <;> simp [Lib.fixed]

@[simp] theorem Lib.refresh_fixed (posting : Nat) (force : Bool) (l : Lib) :
    (l.refresh posting force).fixed = l.fixed := by
  unfold Lib.refresh; (repeat' split) <;> simp [Lib.updDrive_fixed]

@[simp] theorem Lib.fillSlot_fixed (g : Settings) (k : Nat) (d : Draft) (l : Lib) :
    (l.fillSlot g k d).fixed = l.fixed := by
  simp [Lib.fillSlot, Lib.fixed]

@[simp] theorem Lib.postAt_fixed (g : Settings) (k : Nat) (d : Draft) (l : Lib) :
    (l.postAt g k d).fixed = l.fixed := by
  unfold Lib.postAt; dsimp only; (repeat' split) <;> simp [Lib.updDrive_fixed]

@[simp] theorem Lib.offerSlot_fixed (g : Settings) (l : Lib) :
    (l.offerSlot g).fixed = l.fixed := by
  unfold Lib.offerSlot; (repeat' split) <;> simp <;> simp [Lib.fixed]

@[simp] theorem Lib.offerSlots_fixed (g : Settings) (n : Nat) (l : Lib) :
    (Lib.offerSlots g n l).fixed = l.fixed := by
  induction n generalizing l with
  | zero => rfl
  | succ n ih => unfold Lib.offerSlots; split <;> simp [ih]

@[simp] theorem Lib.emptySlot_fixed (k : Nat) (l : Lib) :
    (l.emptySlot k).fixed = l.fixed := by
  unfold Lib.emptySlot; dsimp only; (repeat' split) <;> simp [Lib.updDrive_fixed]

@[simp] theorem Lib.withdrawSlot_fixed (g : Settings) (k : Nat) (l : Lib) :
    (l.withdrawSlot g k).fixed = l.fixed := by
  unfold Lib.withdrawSlot; split <;> simp [Lib.updDrive_fixed]

@[simp] theorem Lib.withdrawWhere_fixed (g : Settings) (test : Prompt → Bool) (l : Lib) :
    (l.withdrawWhere g test).fixed = l.fixed := by
  unfold Lib.withdrawWhere; simp [Lib.updDrive_fixed]

@[simp] theorem Lib.withdrawNotice_fixed (g : Settings) (kind : PromptKind) (test : PromptSubject → Bool) (l : Lib) :
    (l.withdrawNotice g kind test).fixed = l.fixed := by
  unfold Lib.withdrawNotice; simp [Lib.updDrive_fixed]

@[simp] theorem Lib.postNotice_fixed (g : Settings) (kind : PromptKind) (subject : PromptSubject) (detail : Nat) (l : Lib) :
    (l.postNotice g kind subject detail).fixed = l.fixed := by
  unfold Lib.postNotice; (repeat' split) <;> simp [Lib.updDrive_fixed]

@[simp] theorem Lib.joinPromptWaits_fixed (kind : PromptKind) (tag : Nat) (subject : PromptSubject) (detail : Nat) (l : Lib) :
    (l.joinPromptWaits kind tag subject detail).fixed = l.fixed := by
  unfold Lib.joinPromptWaits; (repeat' split) <;> simp <;> simp [Lib.fixed]

@[simp] theorem Lib.dropWait_fixed (tag : Nat) (l : Lib) :
    (l.dropWait tag).fixed = l.fixed := by
  simp [Lib.dropWait, Lib.fixed]

@[simp] theorem Lib.clearRequestPrompt_fixed (g : Settings) (tag : Nat) (l : Lib) :
    (l.clearRequestPrompt g tag).fixed = l.fixed := by
  unfold Lib.clearRequestPrompt; simp [Lib.updDrive_fixed]

@[simp] theorem Lib.postRequest_fixed (g : Settings) (kind : PromptKind) (tag : Nat) (subject : PromptSubject) (detail : Nat) (l : Lib) :
    (l.postRequest g kind tag subject detail).fixed = l.fixed := by
  unfold Lib.postRequest; dsimp only; (repeat' split) <;> simp [Lib.updDrive_fixed]

@[simp] theorem Lib.answerMessage_fixed (x : Nat × Prompt) (answer : Answer) (l : Lib) :
    (l.answerMessage x answer).fixed = l.fixed := by
  unfold Lib.answerMessage; dsimp only; (repeat' split) <;> simp [Lib.updDrive_fixed]

@[simp] theorem Lib.markWrongVolume_fixed (tag : Nat) (wrong : Bool) (l : Lib) :
    (l.markWrongVolume tag wrong).fixed = l.fixed := by
  unfold Lib.markWrongVolume; (repeat' split) <;> simp [Lib.updDrive_fixed]

@[simp] theorem Lib.retagPrompts_fixed (old new : Nat) (l : Lib) :
    (l.retagPrompts old new).fixed = l.fixed := by
  simp [Lib.retagPrompts, Lib.fixed]

@[simp] theorem Lib.judgeLow_fixed (g : Settings) (l : Lib) :
    (l.judgeLow g).fixed = l.fixed := by
  unfold Lib.judgeLow; (repeat' split) <;> simp <;> simp [Lib.fixed]

@[simp] theorem Lib.evalLow_fixed (g : Settings) (l : Lib) :
    (l.evalLow g).fixed = l.fixed := by
  unfold Lib.evalLow; dsimp only; split <;> simp

@[simp] theorem Lib.placeOnScratch_fixed (s : Serial) (l : Lib) :
    (l.placeOnScratch s).fixed = l.fixed := by
  simp [Lib.placeOnScratch, Lib.fixed]

@[simp] theorem Lib.syncScratch_fixed (g : Settings) (s : Serial) (l : Lib) :
    (l.syncScratch g s).fixed = l.fixed := by
  unfold Lib.syncScratch; dsimp only; (repeat' split) <;> simp [Lib.updDrive_fixed]

@[simp] theorem Lib.placeAllOnScratch_fixed (l : Lib) :
    (l.placeAllOnScratch).fixed = l.fixed := by
  unfold Lib.placeAllOnScratch; simp [Lib.updDrive_fixed]

@[simp] theorem Lib.syncAllScratch_fixed (g : Settings) (l : Lib) :
    (l.syncAllScratch g).fixed = l.fixed := by
  unfold Lib.syncAllScratch; dsimp only; (repeat' split) <;> simp [Lib.updDrive_fixed]

@[simp] theorem Lib.orderJoined_fixed (was : List Serial) (l : Lib) :
    (l.orderJoined was).fixed = l.fixed := by
  simp [Lib.orderJoined, Lib.fixed]

@[simp] theorem Lib.changeVol_fixed (g : Settings) (s : Serial) (f : Volume → Volume) (l : Lib) :
    (l.changeVol g s f).fixed = l.fixed := by
  unfold Lib.changeVol; dsimp only; (repeat' split) <;> simp [Lib.updDrive_fixed]

@[simp] theorem Lib.moveVol_fixed (g : Settings) (s : Serial) (st : VolState) (l : Lib) :
    (l.moveVol g s st).fixed = l.fixed := by
  unfold Lib.moveVol; simp [Lib.updDrive_fixed]

@[simp] theorem Lib.setCell_fixed (n : Nat) (c : Cell) (l : Lib) : (l.setCell n c).fixed = l.fixed := by
  unfold Lib.setCell; dsimp only; split <;> rfl

@[simp] theorem Lib.reserveHome_fixed (g : Settings) (s : Serial) (n : Nat) (l : Lib) :
    (l.reserveHome g s n).fixed = l.fixed := by
  unfold Lib.reserveHome; simp [Lib.updDrive_fixed]

@[simp] theorem Lib.clearHome_fixed (g : Settings) (s : Serial) (c : Cell) (l : Lib) :
    (l.clearHome g s c).fixed = l.fixed := by
  unfold Lib.clearHome; split <;> simp [Lib.updDrive_fixed]

@[simp] theorem Lib.clearMarks_fixed (tag : Nat) (l : Lib) : (l.clearMarks tag).fixed = l.fixed := by
  unfold Lib.clearMarks; apply Lib.foldl_fixed; intro l n; split <;> simp

@[simp] theorem Lib.updateRemove_fixed (g : Settings) (l : Lib) :
    (l.updateRemove g).fixed = l.fixed := by
  unfold Lib.updateRemove; split <;> simp [Lib.updDrive_fixed]

@[simp] theorem Lib.changeSlot_fixed (g : Settings) (k : Nat) (s : Slot) (l : Lib) :
    (l.changeSlot g k s).fixed = l.fixed := by
  unfold Lib.changeSlot; dsimp only; (repeat' split) <;> (try simp only [Lib.withdrawNotice_fixed, Lib.notePlaceFreed_fixed]) <;> simp [Lib.fixed]

@[simp] theorem Lib.setSlot_fixed (g : Settings) (k : Nat) (s : Slot) (l : Lib) :
    (l.setSlot g k s).fixed = l.fixed := by
  unfold Lib.setSlot; simp

@[simp] theorem Lib.postRejected_fixed (g : Settings) (k : Nat) (label : Option Serial) (why : Reject) (l : Lib) :
    (l.postRejected g k label why).fixed = l.fixed := by
  unfold Lib.postRejected; simp [Lib.updDrive_fixed]

@[simp] theorem Lib.rejectSlot_fixed (g : Settings) (k : Nat) (label : Option Serial) (why : Reject) (l : Lib) :
    (l.rejectSlot g k label why).fixed = l.fixed := by
  unfold Lib.rejectSlot; simp [Lib.updDrive_fixed]

@[simp] theorem Lib.freePlaceSlot_fixed (g : Settings) (tag : Nat) (l : Lib) :
    (l.freePlaceSlot g tag).fixed = l.fixed := by
  unfold Lib.freePlaceSlot; split <;> simp [Lib.updDrive_fixed]

@[simp] theorem Lib.emptyPlaceSlot_fixed (g : Settings) (tag : Nat) (l : Lib) :
    (l.emptyPlaceSlot g tag).fixed = l.fixed := by
  unfold Lib.emptyPlaceSlot; split <;> simp [Lib.updDrive_fixed]

@[simp] theorem Lib.declareMissing_fixed (g : Settings) (s : Serial) (cellTo : Cell) (l : Lib) :
    (l.declareMissing g s cellTo).fixed = l.fixed := by
  unfold Lib.declareMissing; (repeat' split) <;> simp [Lib.updDrive_fixed]

@[simp] theorem Lib.accrue_fixed (account : Option Nat) (f : Account → Account) (l : Lib) :
    (l.accrue account f).fixed = l.fixed := by
  unfold Lib.accrue; split <;> simp [Lib.updDrive_fixed]

@[simp] theorem Lib.reserveDrive_fixed (d tag : Nat) (cause : Cause) (l : Lib) :
    (l.reserveDrive d tag cause).fixed = l.fixed := by
  unfold Lib.reserveDrive; simp [Lib.updDrive_fixed]

@[simp] theorem Lib.driveFreed_fixed (d : Nat) (l : Lib) :
    (l.driveFreed d).fixed = l.fixed := by
  unfold Lib.driveFreed; split <;> simp [Lib.updDrive_fixed]

@[simp] theorem Lib.releaseDrive_fixed (d : Nat) (l : Lib) :
    (l.releaseDrive d).fixed = l.fixed := by
  unfold Lib.releaseDrive; split <;> simp [Lib.updDrive_fixed]

@[simp] theorem Lib.becomeIdle_fixed (g : Settings) (d : Nat) (l : Lib) :
    (l.becomeIdle g d).fixed = l.fixed := by
  unfold Lib.becomeIdle; simp [Lib.updDrive_fixed]

@[simp] theorem Lib.enterIdle_fixed (g : Settings) (d : Nat) (l : Lib) :
    (l.enterIdle g d).fixed = l.fixed := by
  unfold Lib.enterIdle; split <;> simp [Lib.updDrive_fixed]

@[simp] theorem Lib.leaveDrives_fixed (tag : Nat) (l : Lib) : (l.leaveDrives tag).fixed = l.fixed := by
  unfold Lib.leaveDrives; apply Lib.foldl_fixed; intro l n; split <;> simp [Lib.updDrive_fixed]

@[simp] theorem Lib.postAttention_fixed (g : Settings) (d : Nat) (waiting : Option Nat) (l : Lib) :
    (l.postAttention g d waiting).fixed = l.fixed := by
  unfold Lib.postAttention; split <;> simp [Lib.updDrive_fixed]

@[simp] theorem Lib.clearAttentionPrompt_fixed (g : Settings) (d : Nat) (l : Lib) :
    (l.clearAttentionPrompt g d).fixed = l.fixed := by
  unfold Lib.clearAttentionPrompt; (repeat' split) <;> simp <;> simp [Lib.fixed]

@[simp] theorem Lib.checkCleaning_fixed (d : Nat) (l : Lib) :
    (l.checkCleaning d).fixed = l.fixed := by
  unfold Lib.checkCleaning; (repeat' split) <;> simp [Lib.updDrive_fixed]

@[simp] theorem Lib.setReqState_fixed (g : Settings) (t : Nat) (st : ReqState) (l : Lib) :
    (l.setReqState g t st).fixed = l.fixed := by
  unfold Lib.setReqState; (repeat' split) <;> simp [Lib.updDrive_fixed]

@[simp] theorem Lib.takeQueue_fixed (t : Nat) (l : Lib) :
    (l.takeQueue t).fixed = l.fixed := by
  simp [Lib.takeQueue, Lib.fixed]

@[simp] theorem Lib.enterQueued_fixed (g : Settings) (t : Nat) (l : Lib) :
    (l.enterQueued g t).fixed = l.fixed := by
  unfold Lib.enterQueued; simp [Lib.updDrive_fixed]

@[simp] theorem Lib.enterReturnReady_fixed (g : Settings) (t : Nat) (source : Place) (l : Lib) :
    (l.enterReturnReady g t source).fixed = l.fixed := by
  unfold Lib.enterReturnReady; simp [Lib.updDrive_fixed]

@[simp] theorem Lib.dropDrive_fixed (t : Nat) (l : Lib) :
    (l.dropDrive t).fixed = l.fixed := by
  unfold Lib.dropDrive; simp

@[simp] theorem Lib.fixCode_fixed (t : Nat) (c : Code) (l : Lib) :
    (l.fixCode t c).fixed = l.fixed := by
  unfold Lib.fixCode; simp [Lib.updDrive_fixed]

@[simp] theorem Lib.takeHold_fixed (g : Settings) (s : Serial) (t : Nat) (l : Lib) :
    (l.takeHold g s t).fixed = l.fixed := by
  unfold Lib.takeHold; simp [Lib.updDrive_fixed]

@[simp] theorem Lib.releaseHold_fixed (g : Settings) (t : Nat) (l : Lib) :
    (l.releaseHold g t).fixed = l.fixed := by
  unfold Lib.releaseHold; (repeat' split) <;> simp [Lib.updDrive_fixed]

@[simp] theorem Lib.freeEntry_fixed (t : Nat) (l : Lib) :
    (l.freeEntry t).fixed = l.fixed := by
  simp [Lib.freeEntry, Lib.fixed]

@[simp] theorem Lib.complete_fixed (g : Settings) (t : Nat) (c : Code) (l : Lib) :
    (l.complete g t c).fixed = l.fixed := by
  unfold Lib.complete; dsimp only; (repeat' split) <;> simp [Lib.updDrive_fixed]

@[simp] theorem Lib.admitReq_fixed (g : Settings) (tag : Nat) (origin : Origin) (kind : Kind) (cargo : Cargo) (priority : Nat) (fill : Request → Request) (l : Lib) :
    (l.admitReq g tag origin kind cargo priority fill).fixed = l.fixed := by
  unfold Lib.admitReq; (repeat' split) <;> simp <;> simp [Lib.fixed]

@[simp] theorem Lib.rotate_fixed (t : Nat) (l : Lib) :
    (l.rotate t).fixed = l.fixed := by
  simp [Lib.rotate, Lib.fixed]

@[simp] theorem Lib.createInternal_fixed (g : Settings) (kind : Kind) (cargo : Cargo) (priority : Nat)
    (fill : Request → Request) (l : Lib) : (l.createInternal g kind cargo priority fill).2.fixed = l.fixed := by
  simp [Lib.createInternal]

@[simp] theorem Lib.createReturn_fixed (g : Settings) (cargo : Cargo) (source : Place) (l : Lib) :
    (l.createReturn g cargo source).2.fixed = l.fixed := by
  simp [Lib.createReturn]

@[simp] theorem Lib.createAudit_fixed (g : Settings) (columns : Span) (bySpan : Bool) (l : Lib) :
    (l.createAudit g columns bySpan).2.fixed = l.fixed := by
  simp [Lib.createAudit]

@[simp] theorem Lib.queueClean_fixed (g : Settings) (d : Nat) (l : Lib) :
    (l.queueClean g d).fixed = l.fixed := by
  unfold Lib.queueClean; (repeat' split) <;> simp [Lib.updDrive_fixed]

@[simp] theorem Lib.startImport_fixed (g : Settings) (k : Nat) (label : Option Serial) (s : Serial) (c : Option Nat) (l : Lib) :
    (l.startImport g k label s c).fixed = l.fixed := by
  unfold Lib.startImport; split <;> simp [Lib.updDrive_fixed]

@[simp] theorem Lib.handOver_fixed (g : Settings) (k : Nat) (s : Serial) (l : Lib) :
    (l.handOver g k s).fixed = l.fixed := by
  unfold Lib.handOver; (repeat' split) <;> simp [Lib.updDrive_fixed]

@[simp] theorem Lib.completeCancelled_fixed (g : Settings) (t : Nat) (l : Lib) :
    (l.completeCancelled g t).fixed = l.fixed := by
  unfold Lib.completeCancelled; dsimp only; (repeat' split) <;> simp [Lib.updDrive_fixed]

@[simp] theorem Lib.backToList_fixed (g : Settings) (t : Nat) (l : Lib) :
    (l.backToList g t).fixed = l.fixed := by
  unfold Lib.backToList; (repeat' split) <;> simp [Lib.updDrive_fixed]

@[simp] theorem Lib.giveManual_fixed (g : Settings) (d t : Nat) (l : Lib) :
    (l.giveManual g d t).fixed = l.fixed := by
  unfold Lib.giveManual; simp [Lib.updDrive_fixed]

@[simp] theorem Lib.chooseRoute_fixed (g : Settings) (t : Nat) (l : Lib) :
    (l.chooseRoute g t).fixed = l.fixed := by
  unfold Lib.chooseRoute; dsimp only; (repeat' split) <;> simp [Lib.updDrive_fixed]

@[simp] theorem Lib.offerManual_fixed (g : Settings) (d : Nat) (l : Lib) :
    (l.offerManual g d).fixed = l.fixed := by
  unfold Lib.offerManual; split <;> simp [Lib.updDrive_fixed]

@[simp] theorem Lib.leaveHeld_fixed (g : Settings) (t : Nat) (l : Lib) :
    (l.leaveHeld g t).fixed = l.fixed := by
  unfold Lib.leaveHeld; (repeat' split) <;> simp [Lib.updDrive_fixed]

@[simp] theorem Lib.reqMounted_fixed (g : Settings) (t : Nat) (l : Lib) :
    (l.reqMounted g t).fixed = l.fixed := by
  unfold Lib.reqMounted; dsimp only; (repeat' split) <;> simp [Lib.updDrive_fixed]

@[simp] theorem Lib.reqUnmounted_fixed (g : Settings) (t : Nat) (l : Lib) :
    (l.reqUnmounted g t).fixed = l.fixed := by
  unfold Lib.reqUnmounted; (repeat' split) <;> simp [Lib.updDrive_fixed]

@[simp] theorem Lib.reqRewinding_fixed (g : Settings) (t : Nat) (l : Lib) :
    (l.reqRewinding g t).fixed = l.fixed := by
  unfold Lib.reqRewinding; simp [Lib.updDrive_fixed]

@[simp] theorem Lib.returnFromDrive_fixed (g : Settings) (d : Nat) (l : Lib) :
    (l.returnFromDrive g d).fixed = l.fixed := by
  unfold Lib.returnFromDrive; dsimp only; (repeat' split) <;> simp [Lib.updDrive_fixed]

@[simp] theorem Lib.enterAwaitPick_fixed (g : Settings) (d : Nat) (l : Lib) :
    (l.enterAwaitPick g d).fixed = l.fixed := by
  unfold Lib.enterAwaitPick; dsimp only; (repeat' split) <;> simp [Lib.updDrive_fixed]

@[simp] theorem Lib.updateLock_fixed (l : Lib) :
    (l.updateLock).fixed = l.fixed := by
  unfold Lib.updateLock; dsimp only; (repeat' split) <;> simp <;> simp [Lib.fixed]

@[simp] theorem Lib.sendOrder_fixed (g : Settings) (x : AccId) (l : Lib) :
    (l.sendOrder g x).fixed = l.fixed := by
  unfold Lib.sendOrder; dsimp only; (repeat' split) <;> simp [Lib.updDrive_fixed]

@[simp] theorem Lib.sendQuery_fixed (g : Settings) (x : AccId) (why : QueryFor) (l : Lib) :
    (l.sendQuery g x why).fixed = l.fixed := by
  unfold Lib.sendQuery; simp [Lib.updDrive_fixed]

@[simp] theorem Lib.leftWait_fixed (x : AccId) (l : Lib) :
    (l.leftWait x).fixed = l.fixed := by
  unfold Lib.leftWait; (repeat' split) <;> simp <;> simp [Lib.fixed]

@[simp] theorem Lib.granted_fixed (g : Settings) (x : AccId) (s : Span) (l : Lib) :
    (l.granted g x s).fixed = l.fixed := by
  unfold Lib.granted; dsimp only; (repeat' split) <;> simp [Lib.updDrive_fixed]

@[simp] theorem Lib.retest_fixed (g : Settings) (x : AccId) (l : Lib) :
    (l.retest g x).fixed = l.fixed := by
  unfold Lib.retest; (repeat' split) <;> simp [Lib.updDrive_fixed]

@[simp] theorem Lib.startYield_fixed (g : Settings) (y : AccId) (c : Nat) (l : Lib) :
    (l.startYield g y c).fixed = l.fixed := by
  unfold Lib.startYield; simp [Lib.updDrive_fixed]

@[simp] theorem Lib.setCauseOf_fixed (o : Order) (c : Cause) (l : Lib) :
    (l.setCauseOf o c).fixed = l.fixed := by
  unfold Lib.setCauseOf; (repeat' split) <;> simp [Lib.updDrive_fixed]

@[simp] theorem Lib.releaseReservations_fixed (g : Settings) (o : Order) (t : Nat) (l : Lib) :
    (l.releaseReservations g o t).fixed = l.fixed := by
  unfold Lib.releaseReservations; dsimp only; (repeat' split) <;> simp [Lib.updDrive_fixed]

@[simp] theorem Lib.unstage_fixed (x : AccId) (l : Lib) : (l.unstage x).fixed = l.fixed := by
  unfold Lib.unstage; simp [Lib.updDrive_fixed]

@[simp] theorem Lib.withdrawStaged_fixed (g : Settings) (x : AccId) (l : Lib) :
    (l.withdrawStaged g x).fixed = l.fixed := by
  unfold Lib.withdrawStaged; (repeat' split) <;> simp [Lib.updDrive_fixed]

@[simp] theorem Lib.dropStaged_fixed (g : Settings) (t : Nat) (l : Lib) :
    (l.dropStaged g t).fixed = l.fixed := by
  unfold Lib.dropStaged; (repeat' split) <;> simp [Lib.updDrive_fixed]

@[simp] theorem Lib.withdrawFor_fixed (g : Settings) (t : Nat) (l : Lib) :
    (l.withdrawFor g t).fixed = l.fixed := by
  unfold Lib.withdrawFor; split <;> simp [Lib.updDrive_fixed]

@[simp] theorem Lib.setAside_fixed (g : Settings) (x : AccId) (need : Span) (l : Lib) :
    (l.setAside g x need).fixed = l.fixed := by
  unfold Lib.setAside; dsimp only; (repeat' split) <;> simp [Lib.updDrive_fixed]

@[simp] theorem Lib.contend_fixed (g : Settings) (x : AccId) (l : Lib) :
    (l.contend g x).fixed = l.fixed := by
  unfold Lib.contend; dsimp only; (repeat' split) <;> simp [Lib.updDrive_fixed]

@[simp] theorem Lib.enterWait_fixed (g : Settings) (x : AccId) (s : Span) (l : Lib) :
    (l.enterWait g x s).fixed = l.fixed := by
  unfold Lib.enterWait; (repeat' split) <;> simp <;> simp [Lib.fixed]

@[simp] theorem Lib.takeUp_fixed (g : Settings) (x : AccId) (l : Lib) :
    (l.takeUp g x).fixed = l.fixed := by
  unfold Lib.takeUp; dsimp only; (repeat' split) <;> simp [Lib.updDrive_fixed]

theorem Lib.chooseDest_fixed (g : Settings) (t : Nat) (b : Bool) (l m : Lib) (d : Place)
    (h : l.chooseDest g t b = some (d, m)) : m.fixed = l.fixed := by
  unfold Lib.chooseDest at h
  split at h
  · simp at h
  · dsimp only at h
    (repeat' split at h) <;> simp at h <;> (try obtain ⟨_, _, _, rfl⟩ := h) <;> (try obtain ⟨_, rfl⟩ := h) <;> simp

@[simp] theorem Lib.decideAs_fixed (b : Bool) (x : AccId) (l : Lib) :
    (l.decideAs b x).fixed = l.fixed := by
  unfold Lib.decideAs; simp

@[simp] theorem Lib.holdReel_fixed (g : Settings) (x : AccId) (l : Lib) :
    (l.holdReel g x).fixed = l.fixed := by
  unfold Lib.holdReel; simp [Lib.updDrive_fixed]

@[simp] theorem Lib.clearHeldNotice_fixed (g : Settings) (x : AccId) (l : Lib) :
    (l.clearHeldNotice g x).fixed = l.fixed := by
  unfold Lib.clearHeldNotice; simp [Lib.updDrive_fixed]

@[simp] theorem Lib.retarget_fixed (g : Settings) (x : AccId) (d : Place) (l : Lib) :
    (l.retarget g x d).fixed = l.fixed := by
  unfold Lib.retarget; dsimp only; (repeat' split) <;> simp [Lib.updDrive_fixed]

@[simp] theorem Lib.destFound_fixed (g : Settings) (x : AccId) (d : Place) (l : Lib) :
    (l.destFound g x d).fixed = l.fixed := by
  unfold Lib.destFound; simp [Lib.updDrive_fixed]

@[simp] theorem Lib.noteNewHome_fixed (x : AccId) (t : Nat) (l was : Lib) :
    (l.noteNewHome x t was).fixed = l.fixed := by
  unfold Lib.noteNewHome; split <;> simp

theorem Lib.sendReel?_fixed (g : Settings) (x : AccId) (t : Nat) (b : Bool) (l m : Lib)
    (h : l.sendReel? g x t b = some m) : m.fixed = l.fixed := by
  obtain ⟨c, hc, rfl⟩ := Option.map_eq_some_iff.mp h
  simp [Lib.chooseDest_fixed g t b l c.2 c.1 hc]

@[simp] theorem Lib.retargetOrHold_fixed (g : Settings) (x : AccId) (l : Lib) :
    (l.retargetOrHold g x).fixed = l.fixed := by
  unfold Lib.retargetOrHold
  split
  · rfl
  · split
    · rfl
    · next t _ =>
      cases h : l.sendReel? g x t _ with
      | some m => exact Lib.sendReel?_fixed g x t _ l m h
      | none => simp

@[simp] theorem Lib.tryHeld_fixed (g : Settings) (x : AccId) (l : Lib) : (l.tryHeld g x).fixed = l.fixed := by
  unfold Lib.tryHeld
  split
  · rfl
  · next o _ =>
    split
    · cases h : o.serves.bind fun t => l.sendReel? g x t o.asReturn with
      | some m =>
        obtain ⟨t, _, h⟩ := Option.bind_eq_some_iff.mp h
        exact Lib.sendReel?_fixed g x t _ l m h
      | none => rfl
    · rfl

@[simp] theorem Lib.offerPlaces_fixed (g : Settings) (l : Lib) :
    (l.offerPlaces g).fixed = l.fixed := by
  unfold Lib.offerPlaces
  split
  · exact (Lib.tryHeld_fixed g .b _).trans (Lib.tryHeld_fixed g .a _)
  · rfl

@[simp] theorem Lib.makeCurrent_fixed (g : Settings) (x : AccId) (o : Order) (l : Lib) :
    (l.makeCurrent g x o).fixed = l.fixed := by
  unfold Lib.makeCurrent; dsimp only; (repeat' split) <;> simp [Lib.updDrive_fixed]

@[simp] theorem Lib.promote_fixed (g : Settings) (x : AccId) (l : Lib) :
    (l.promote g x).fixed = l.fixed := by
  unfold Lib.promote; (repeat' split) <;> simp [Lib.updDrive_fixed]

@[simp] theorem Lib.serveWaiter_fixed (g : Settings) (y : AccId) (l : Lib) :
    (l.serveWaiter g y).fixed = l.fixed := by
  unfold Lib.serveWaiter; dsimp only; (repeat' split) <;> simp [Lib.updDrive_fixed]

@[simp] theorem Lib.endOrder_fixed (g : Settings) (y : AccId) (l : Lib) :
    (l.endOrder g y).fixed = l.fixed := by
  unfold Lib.endOrder; dsimp only; (repeat' split) <;> simp [Lib.updDrive_fixed]

@[simp] theorem Lib.abandon_fixed (g : Settings) (x : AccId) (l : Lib) :
    (l.abandon g x).fixed = l.fixed := by
  unfold Lib.abandon; split <;> simp [Lib.updDrive_fixed]

@[simp] theorem Lib.driveLost_fixed (g : Settings) (t : Nat) (l : Lib) :
    (l.driveLost g t).fixed = l.fixed := by
  unfold Lib.driveLost; (repeat' split) <;> simp [Lib.updDrive_fixed]

@[simp] theorem Lib.unreserve_fixed (g : Settings) (d : Nat) (l : Lib) :
    (l.unreserve g d).fixed = l.fixed := by
  unfold Lib.unreserve; split <;> simp [Lib.updDrive_fixed]

@[simp] theorem Lib.loseVolume_fixed (g : Settings) (s : Serial) (cellTo : Cell) (l : Lib) :
    (l.loseVolume g s cellTo).fixed = l.fixed := by
  unfold Lib.loseVolume; dsimp only; (repeat' split) <;> simp [Lib.updDrive_fixed]

@[simp] theorem Lib.faultedOrder_fixed (g : Settings) (o : Order) (l : Lib) :
    (l.faultedOrder g o).fixed = l.fixed := by
  unfold Lib.faultedOrder; dsimp only; (repeat' split) <;> simp [Lib.updDrive_fixed]

@[simp] theorem Lib.gripperToList_fixed (g : Settings) (x : AccId) (t : Nat) (l : Lib) :
    (l.gripperToList g x t).fixed = l.fixed := by
  unfold Lib.gripperToList; dsimp only; split <;> simp

@[simp] theorem Lib.dropUnreachable_fixed (g : Settings) (x : AccId) (l : Lib) :
    (l.dropUnreachable g x).fixed = l.fixed := by
  unfold Lib.dropUnreachable; dsimp only; (repeat' split) <;> simp [Lib.updDrive_fixed]

@[simp] theorem Lib.faultAcc_fixed (g : Settings) (x : AccId) (why : FaultCause) (column : Option Nat) (l : Lib) :
    (l.faultAcc g x why column).fixed = l.fixed := by
  unfold Lib.faultAcc
  simp only [Lib.wake_fixed, Lib.orderJoined_fixed, Lib.dropUnreachable_fixed, Lib.postNotice_fixed, Lib.raiseAccessor_fixed,
    Lib.clearHeldNotice_fixed, Lib.updateLock_fixed]
  rw [Lib.foldl_fixed _ (fun l o => Lib.faultedOrder_fixed g o l)]
  simp

@[simp] theorem Lib.prepare_fixed (g : Settings) (x : AccId) (r : Request) (l : Lib) :
    (l.prepare g x r).1.fixed = l.fixed := by
  unfold Lib.prepare
  dsimp only
  (repeat' split) <;> simp

@[simp] theorem Lib.stage_fixed (g : Settings) (x : AccId) (r : Request) (l : Lib) :
    (l.stage g x r).fixed = l.fixed := by
  unfold Lib.stage
  split
  · next h =>
    have := Lib.prepare_fixed g x r l
    rw [h] at this
    split <;> simpa using this
  · next h =>
    have := Lib.prepare_fixed g x r l
    rwa [h] at this

@[simp] theorem Lib.tryJob_fixed (g : Settings) (l : Lib) (t : Nat) :
    (Lib.tryJob g l t).fixed = l.fixed := by
  unfold Lib.tryJob; (repeat' split) <;> simp [Lib.updDrive_fixed]

@[simp] theorem Lib.pass_fixed (g : Settings) (l : Lib) :
    (l.pass g).fixed = l.fixed := by
  unfold Lib.pass; simp [Lib.updDrive_fixed]

@[simp] theorem Lib.passes_fixed (g : Settings) (n : Nat) (l : Lib) : (Lib.passes g n l).fixed = l.fixed := by
  induction n generalizing l with
  | zero => rfl
  | succ n ih => unfold Lib.passes; dsimp only; split <;> simp [ih]

theorem Lib.displace_fixed (g : Settings) (l m : Lib) (h : l.displace g = some m) : m.fixed = l.fixed := by
  unfold Lib.displace at h
  (repeat' split at h) <;> simp at h
  subst h
  (repeat' split) <;> simp

@[simp] theorem Lib.dispatch_fixed (g : Settings) (n : Nat) (l : Lib) :
    (Lib.dispatch g n l).fixed = l.fixed := by
  induction n generalizing l with
  | zero => rfl
  | succ n ih =>
    unfold Lib.dispatch
    dsimp only
    split
    · next h => rw [ih, Lib.displace_fixed g _ _ h, Lib.passes_fixed]
    · simp

@[simp] theorem Lib.importOrWait_fixed (g : Settings) (k : Nat) (s : Serial) (make : Lib → Lib)
    (h : ∀ l, (make l).fixed = l.fixed) (l : Lib) : (l.importOrWait g k s make).fixed = l.fixed := by
  unfold Lib.importOrWait
  split
  · simp
  · split <;> simp [h]

@[simp] theorem Lib.claimSlot_fixed (g : Settings) (k : Nat) (s : Serial) (t : Nat) (l : Lib) :
    (l.claimSlot g k s t).fixed = l.fixed := by
  unfold Lib.claimSlot; simp
@[simp] theorem Lib.settleSlot_fixed (g : Settings) (l : Lib) (k : Nat) :
    (Lib.settleSlot g l k).fixed = l.fixed := by
  unfold Lib.settleSlot; (repeat' split) <;> simp [Lib.updDrive_fixed]

@[simp] theorem Lib.scan_fixed (g : Settings) (l : Lib) :
    (l.scan g).fixed = l.fixed := by
  unfold Lib.scan; simp [Lib.updDrive_fixed]

@[simp] theorem Lib.postNoticeFor_fixed (g : Settings) (r : Raising) (l : Lib) :
    (l.postNoticeFor g r).fixed = l.fixed := by
  unfold Lib.postNoticeFor; (repeat' split) <;> simp [Lib.updDrive_fixed]

@[simp] theorem Lib.act_fixed (g : Settings) (l : Lib) (r : Raising) :
    (Lib.act g l r).fixed = l.fixed := by
  unfold Lib.act; (repeat' split) <;> simp [Lib.updDrive_fixed]

@[simp] theorem Lib.makeRuns_fixed (g : Settings) (rs : List Span) (l : Lib) :
    (Lib.makeRuns g rs l).fixed = l.fixed := by
  induction rs generalizing l with
  | nil => rfl
  | cons c cs ih =>
    unfold Lib.makeRuns
    split
    · rw [ih]
      have := Lib.createAudit_fixed g c false l
      simpa [Lib.fixed] using this
    · rfl

@[simp] theorem Lib.offerEntries_fixed (g : Settings) (l : Lib) :
    (l.offerEntries g).fixed = l.fixed := by
  unfold Lib.offerEntries; simp [Lib.updDrive_fixed]

@[simp] theorem Lib.settleOne_fixed (g : Settings) (l : Lib) : (l.settleOne g).fixed = l.fixed := by
  unfold Lib.settleOne
  split
  · exact Lib.offerEntries_fixed g _
  · split
    · exact Lib.offerPlaces_fixed g l
    · split
      · exact Lib.offerManual_fixed g _ _
      · exact Lib.dispatch_fixed g _ l

@[simp] theorem Lib.quiesce_fixed (g : Settings) (n : Nat) (l : Lib) : (Lib.quiesce g n l).fixed = l.fixed := by
  induction n generalizing l with
  | zero => rfl
  | succ n ih => unfold Lib.quiesce; split <;> simp [ih]

@[simp] theorem Lib.rounds_fixed (g : Settings) (n : Nat) (l : Lib) : (Lib.rounds g n l).fixed = l.fixed := by
  induction n generalizing l with
  | zero => rfl
  | succ n ih =>
    unfold Lib.rounds
    dsimp only
    split
    · simp
    · rw [ih, Lib.foldl_fixed _ (fun l r => Lib.act_fixed g l r)]
      exact Lib.quiesce_fixed g 64 l

@[simp] theorem Lib.settle_fixed (g : Settings) (l : Lib) : (l.settle g).fixed = l.fixed :=
  Lib.rounds_fixed g 16 l

end Sys2Proof.Machine
end

