-- ==== Sys2Proof/Laws/Steps.lean ====
section
/-! SUPPORT. What one step, a gate and a row of checks come to, and what a lookup finds after an update. -/

namespace Sys2Proof.Machine

/-! ## Settling -/

theorem Lib.quiesce_quiet (g : Settings) (n : Nat) (l : Lib) (h : l.notes = .none) : Lib.quiesce g n l = l := by
  cases n with
  | zero => rfl
  | succ n => unfold Lib.quiesce; simp [h, Notes.none, Lib.quiet]

theorem Lib.rounds_quiet (g : Settings) (n : Nat) (l : Lib) (h : l.notes = .none) : Lib.rounds g n l = l := by
  cases n with
  | zero => rfl
  | succ n =>
    unfold Lib.rounds
    simp [Lib.quiesce_quiet g 64 l h, h, Notes.none, Lib.bySource, sortBy]

/-- Records with nothing noted are settled as they stand. -/
@[simp] theorem Lib.settle_quiet (g : Settings) (l : Lib) (h : l.notes = .none) : l.settle g = l := by
  unfold Lib.settle
  rw [Lib.rounds_quiet g 16 l h, ← h]

@[simp] theorem Lib.settle_begin (g : Settings) (l : Lib) : l.begin.settle g = l.begin :=
  Lib.settle_quiet g _ rfl

/-- A settled step has nothing noted. -/
@[simp] theorem Lib.settle_notes (g : Settings) (l : Lib) : (l.settle g).notes = .none := rfl

@[simp] theorem Lib.begin_shape (l : Lib) : l.begin.shape = l.shape := rfl

theorem Lib.opened_of_not_clearing (g : Settings) (l : Lib) (h : l.start.clearing = false) :
    l.opened g = l.begin := by
  simp [Lib.opened, h]

/-! ## Steps -/

theorem event_live (f : Settings → Lib → Lib) (s : State) (h : s.live) :
    event f s = s.settled (f s.set s.found) := by
  have h' : s.set.warned = false := h
  simp [event, h', State.settled, State.found]

theorem hostStep_live (f : Settings → Lib → Applied) (s : State) (h : s.live) :
    hostStep f s = s.after (f s.set s.lib.begin).set ((f s.set s.lib.begin).lib.settle (f s.set s.lib.begin).set)
      ((f s.set s.lib.begin).reply ((f s.set s.lib.begin).lib.settle (f s.set s.lib.begin).set)) := by
  have h' : s.set.warned = false := h
  simp [hostStep, h', State.after]

theorem portStep_live (f : State → Port) (s : State) (h : s.live) :
    portStep f s = { s with port := f s, lib := s.lib.begin } := by
  have h' : s.set.warned = false := h
  simp [portStep, h']

theorem quietStep_live (s : State) (h : s.live) : quietStep s = { s with lib := s.lib.begin } := by
  have h' : s.set.warned = false := h
  simp [quietStep, h']

/-- A command that ends GOOD. -/
theorem hostStep_good (f : Settings → Lib → Applied) (s : State) (h : s.live) (g : Settings) (l : Lib)
    (data : List Field) (hf : f s.set s.lib.begin = .good g l data) :
    hostStep f s = s.after g (l.settle g) (.good data) := by
  rw [hostStep_live f s h, hf]; rfl

/-- A command that is refused changes no record. -/
theorem hostStep_refuse (f : Settings → Lib → Applied) (s : State) (h : s.live) (c : Sense) (x : Subject)
    (hf : f s.set s.lib.begin = .refuse s.set s.lib.begin c x) :
    hostStep f s = s.after s.set s.lib.begin (.check c x) := by
  rw [hostStep_live f s h, hf]
  exact congrArg (s.after s.set · (.check c x)) (Lib.settle_begin s.set s.lib)

theorem hostStep_busy (f : Settings → Lib → Applied) (s : State) (h : s.live)
    (hf : f s.set s.lib.begin = .busy s.set s.lib.begin) :
    hostStep f s = s.after s.set s.lib.begin .busy := by
  rw [hostStep_live f s h, hf]
  exact congrArg (s.after s.set · .busy) (Lib.settle_begin s.set s.lib)

/-! ## Host commands and events as one step -/

/-- A host command is its application as one step. -/
theorem exec_hostCommand (c : Instr) (f : Settings → Lib → Applied) (s : State) (h : hostCommand c = some f) :
    exec c s = .next (hostStep f s) := by
  cases c <;> simp [hostCommand] at h <;> subst h <;> rfl

/-- A block spells a host command. -/
theorem spelled_hostCommand (block out : List Byte) (c : Instr) (h : spelled block out = some c) :
    c = .requestSense ∨ ∃ f, hostCommand c = some f := by
  unfold spelled at h; dsimp only at h; split at h
  · unfold spelled6 at h; split at h <;> cases h <;> first | exact .inl rfl | exact .inr ⟨_, rfl⟩
  · right; unfold spelledLong at h; split at h <;> cases h <;> exact ⟨_, rfl⟩

/-- What `applyBlock` does with a command that its block spells: the command's own row, and the phase that follows
its outcome. -/
theorem applyBlock_spelled (s t : State) (c : Instr) (hl : s.live)
    (hr : reservedZero (s.port.block.getD 0 0).toNat s.port.block = true)
    (hs : spelled s.port.block s.port.outData = some c) (he : exec c s = .next t) :
    ∃ r : Result, t.port.last = some r ∧ applyBlock s = { t with port := { t.port with
      conn := if (dataBytes r.data).isEmpty then .status else .dataIn
      inData := dataBytes r.data, status := r.status } } := by
  rcases spelled_hostCommand _ _ _ hs with rfl | ⟨f, hf⟩
  · have hl' : s.set.warned = false := hl
    unfold applyBlock; simp only [hr, hs, Bool.not_true, Bool.false_eq_true, if_false]
    simp [exec, execRequestSense, hl'] at he
    subst he
    exact ⟨_, rfl, rfl⟩
  · have hne : c ≠ .requestSense := by rintro rfl; cases hf
    have ha : applyBlock s = { hostStep f s with port := (hostStep f s).port.answer } := by
      unfold applyBlock; simp only [hr, hs, Bool.not_true, Bool.false_eq_true, if_false]
      cases c <;> first | exact absurd rfl hne | simp [hf]
    rw [exec_hostCommand c f s hf, hostStep_live f s hl] at he
    cases he
    rw [ha, hostStep_live f s hl]
    generalize (f s.set s.lib.begin).reply ((f s.set s.lib.begin).lib.settle (f s.set s.lib.begin).set) = r
    exact ⟨r, by cases r <;> rfl, by cases r <;> rfl⟩

/-- A host command that ends GOOD with nothing left to do. -/
theorem exec_good_quiet (c : Instr) (f : Settings → Lib → Applied) (s : State) (hl : s.live)
    (hc : hostCommand c = some f) (g : Settings) (l : Lib) (d : List Field)
    (hf : f s.set s.lib.begin = .good g l d) (hq : l.notes = .none) :
    exec c s = .next (s.after g l (.good d)) := by
  rw [exec_hostCommand c f s hc, hostStep_good f s hl g l d hf, Lib.settle_quiet g l hq]

/-- A host command that ends GOOD. -/
theorem exec_good (c : Instr) (f : Settings → Lib → Applied) (s : State) (hl : s.live)
    (hc : hostCommand c = some f) (g : Settings) (l : Lib) (d : List Field)
    (hf : f s.set s.lib.begin = .good g l d) :
    exec c s = .next (s.after g (l.settle g) (.good d)) := by
  rw [exec_hostCommand c f s hc, hostStep_good f s hl g l d hf]

/-- A host command that is refused. -/
theorem exec_refuse (c : Instr) (f : Settings → Lib → Applied) (s : State) (hl : s.live)
    (hc : hostCommand c = some f) (x : Sense) (y : Subject)
    (hf : f s.set s.lib.begin = .refuse s.set s.lib.begin x y) :
    exec c s = .next (s.after s.set s.lib.begin (.check x y)) := by
  rw [exec_hostCommand c f s hc, hostStep_refuse f s hl x y hf]

/-- A host command that ends BUSY. -/
theorem exec_busy (c : Instr) (f : Settings → Lib → Applied) (s : State) (hl : s.live)
    (hc : hostCommand c = some f) (hf : f s.set s.lib.begin = .busy s.set s.lib.begin) :
    exec c s = .next (s.after s.set s.lib.begin .busy) := by
  rw [exec_hostCommand c f s hc, hostStep_busy f s hl hf]

/-- An event finds the records with nothing noted. -/
@[simp] theorem found_notes (s : State) : s.found.notes = .none := by
  unfold State.found Lib.opened; dsimp only; split <;> rfl

/-- What the expiry of the ACK stall timer does (R188, R200): a timer that is not due changes no register. -/
theorem execAckStallExpiry_live (s : State) (h : s.live) :
    execAckStallExpiry s = .next { s with
      port := if isDue s.port.stall then s.port.ends else s.port
      lib := if isDue s.port.stall = true ∧ s.lib.start.state = .formatting then s.found else s.lib.begin } := by
  unfold execAckStallExpiry
  dsimp only
  rw [portStep_live _ s h]
  by_cases hd : isDue s.port.stall = true <;> by_cases hf : s.lib.start.state = .formatting <;> simp [hd, hf]
  rw [event_live _ _ (show State.live { s with port := s.port.ends, lib := s.lib.begin } from h)]
  exact congrArg (fun l => { s with port := s.port.ends, lib := l }) (Lib.settle_quiet s.set s.found (found_notes s))

/-- An event. -/
theorem exec_event (c : Instr) (f : Settings → Lib → Lib) (s : State) (hl : s.live)
    (hc : exec c s = .next (event f s)) (l : Lib) (hf : f s.set s.found = l) :
    exec c s = .next (s.settled l) := by
  rw [hc, event_live f s hl, hf]

/-- An event that leaves nothing to do. -/
theorem exec_event_quiet (c : Instr) (f : Settings → Lib → Lib) (s : State) (hl : s.live)
    (hc : exec c s = .next (event f s)) (l : Lib) (hf : f s.set s.found = l) (hn : l.notes = .none) :
    exec c s = .next { s with lib := l } := by
  rw [exec_event c f s hl hc l hf]; unfold State.settled; rw [Lib.settle_quiet _ _ hn]

@[simp] theorem begin_vol? (l : Lib) (x : Serial) : l.begin.vol? x = l.vol? x := rfl
@[simp] theorem begin_req? (l : Lib) (x : Nat) : l.begin.req? x = l.req? x := rfl
@[simp] theorem begin_account? (l : Lib) (x : Nat) : l.begin.account? x = l.account? x := rfl
@[simp] theorem begin_drive (l : Lib) (x : Nat) : l.begin.drive x = l.drive x := rfl
@[simp] theorem begin_cell (l : Lib) (x : Nat) : l.begin.cell x = l.cell x := rfl
@[simp] theorem begin_slot (l : Lib) (x : Nat) : l.begin.slot x = l.slot x := rfl
@[simp] theorem begin_acc (l : Lib) (x : AccId) : l.begin.acc x = l.acc x := rfl

/-! ## The gate and the checks -/

/-- STARTING and READY let every command through the gate. -/
theorem gated_serving (who : Gate) (x : Subject) (g : Settings) (l : Lib) (k : Applied)
    (h : l.start.state = .ready ∨ l.start.state = .starting) : gated who x g l k = k := by
  rcases h with h | h <;> simp [gated, h]

/-- UNFORMATTED refuses a command of the normal gate. -/
theorem gated_unformatted (x : Subject) (g : Settings) (l : Lib) (k : Applied)
    (h : l.start.state = .unformatted) : gated .normal x g l k = .refuse g l .notFormatted x := by
  simp [gated, h]

theorem gated_unformattedToo (x : Subject) (g : Settings) (l : Lib) (k : Applied)
    (h : l.start.state ≠ .formatting) : gated .unformattedToo x g l k = k := by
  unfold gated; split <;> simp_all

/-- FORMATTING turns away all but the four commands of R195. -/
theorem gated_formatting (who : Gate) (x : Subject) (g : Settings) (l : Lib) (k : Applied)
    (h : l.start.state = .formatting) (hw : who ≠ .always) : gated who x g l k = .busy g l := by
  simp [gated, h, hw]

@[simp] theorem gated_always (x : Subject) (g : Settings) (l : Lib) (k : Applied) : gated .always x g l k = k := by
  unfold gated; split <;> simp

@[simp] theorem checks_nil (g : Settings) (l : Lib) (k : Applied) : checks [] g l k = k := rfl

@[simp] theorem checks_pass (c : Sense) (x : Subject) (cs : List (Bool × Sense × Subject)) (g : Settings) (l : Lib)
    (k : Applied) : checks ((true, c, x) :: cs) g l k = checks cs g l k := rfl

@[simp] theorem checks_fail (c : Sense) (x : Subject) (cs : List (Bool × Sense × Subject)) (g : Settings) (l : Lib)
    (k : Applied) : checks ((false, c, x) :: cs) g l k = .refuse g l c x := rfl

/-! ## Lookups -/

theorem List.find?_map_keep {α : Type} (p : α → Bool) (f : α → α) (hf : ∀ a, p (f a) = p a) (xs : List α) :
    (xs.map f).find? p = (xs.find? p).map f := by
  induction xs with
  | nil => rfl
  | cons x xs ih => by_cases h : p x <;> simp [hf, h, ih]

/-- The request just changed. -/
theorem Lib.req?_updReq_self (t : Nat) (f : Request → Request) (l : Lib) (hf : ∀ r, (f r).tag = r.tag) :
    (l.updReq t f).req? t = (l.req? t).map f := by
  unfold Lib.req? Lib.updReq
  dsimp only
  rw [List.find?_map_keep]
  · cases h : l.reqs.live.find? (fun r => decide (r.tag = t)) with
    | none => rfl
    | some r =>
      have : r.tag = t := by simpa using List.find?_some h
      simp [this]
  · intro r; by_cases h : r.tag = t <;> simp [h, hf]

/-- The record just changed. -/
theorem Lib.vol?_updVol_self (s : Serial) (f : Volume → Volume) (l : Lib) (hf : ∀ v, (f v).serial = v.serial) :
    (l.updVol s f).vol? s = (l.vol? s).map f := by
  unfold Lib.vol? Lib.updVol
  dsimp only
  rw [List.find?_map_keep]
  · cases h : l.cat.vols.find? (fun v => decide (v.serial = s)) with
    | none => rfl
    | some v =>
      have : v.serial = s := by simpa using List.find?_some h
      simp [this]
  · intro v; by_cases h : v.serial = s <;> simp [h, hf]

theorem Lib.account?_updAcct_self (n : Nat) (f : Account → Account) (l : Lib) (hf : ∀ a, (f a).number = a.number) :
    (l.updAcct n f).account? n = (l.account? n).map f := by
  unfold Lib.account? Lib.updAcct
  dsimp only
  rw [List.find?_map_keep]
  · cases h : l.acct.accounts.find? (fun a => decide (a.number = n)) with
    | none => rfl
    | some a =>
      have : a.number = n := by simpa using List.find?_some h
      simp [this]
  · intro a; by_cases h : a.number = n <;> simp [h, hf]

/-- The drive just changed. -/
theorem Lib.drive_updDrive_self (d : Nat) (f : Drive → Drive) (l : Lib) (h : d < l.drives.length) :
    (l.updDrive d f).drive d = f (l.drive d) := by
  simp [Lib.drive, Lib.updDrive, List.getD_eq_getElem?_getD, h]

/-- Any other drive. -/
theorem Lib.drive_updDrive_other (d e : Nat) (f : Drive → Drive) (l : Lib) (h : e ≠ d) :
    (l.updDrive d f).drive e = l.drive e := by
  simp only [Lib.drive, Lib.updDrive, List.getD_eq_getElem?_getD, List.getElem?_modify]
  cases l.drives[e]? <;> simp [Ne.symm h]

end Sys2Proof.Machine
end

