-- ==== Sys2Proof/Laws/Keeps.lean ====
section
/-! SUPPORT. What the prompt operations and the catalogue operations leave alone: a prompt operation changes the
prompt unit and what is sent, a change of one record the catalogue, the prompts, what is sent and the notes, and
a change of one place the place unit as well; what the error figure of UNLOADED changes; and what a load of the clock
does to the deadlines of the prompts. -/

namespace Sys2Proof.Machine

/-! ## The relations -/

/-- `m` differs from `l` in the prompt unit and the messages sent at most. -/
def PromptsOnly (l m : Lib) : Prop := m = { l with prompts := m.prompts, out := m.out }

/-- `m` differs from `l` in the catalogue, the prompt unit, the messages sent and the notes at most. -/
def CatOnly (l m : Lib) : Prop := m = { l with cat := m.cat, prompts := m.prompts, out := m.out, notes := m.notes }

/-- As `CatOnly`, and in the place unit. -/
def PlaceOnly (l m : Lib) : Prop :=
  m = { l with cat := m.cat, place := m.place, prompts := m.prompts, out := m.out, notes := m.notes }

/-- As `PromptsOnly`, and in the queue sequence counter. -/
def PostOnly (l m : Lib) : Prop :=
  m = { l with prompts := m.prompts, out := m.out, reqs := { l.reqs with queueSeq := m.reqs.queueSeq } }

theorem PromptsOnly.refl (l : Lib) : PromptsOnly l l := rfl
theorem CatOnly.refl (l : Lib) : CatOnly l l := rfl
theorem PlaceOnly.refl (l : Lib) : PlaceOnly l l := rfl
theorem PostOnly.refl (l : Lib) : PostOnly l l := rfl

theorem PromptsOnly.trans {l m n : Lib} (h : PromptsOnly l m) (k : PromptsOnly m n) : PromptsOnly l n := by
  unfold PromptsOnly at *; rw [k, h]

theorem CatOnly.trans {l m n : Lib} (h : CatOnly l m) (k : CatOnly m n) : CatOnly l n := by
  unfold CatOnly at *; rw [k, h]

theorem PlaceOnly.trans {l m n : Lib} (h : PlaceOnly l m) (k : PlaceOnly m n) : PlaceOnly l n := by
  unfold PlaceOnly at *; rw [k, h]

theorem PostOnly.trans {l m n : Lib} (h : PostOnly l m) (k : PostOnly m n) : PostOnly l n := by
  unfold PostOnly at *; rw [k, h]

theorem PromptsOnly.toCat {l m : Lib} (h : PromptsOnly l m) : CatOnly l m := by
  unfold PromptsOnly CatOnly at *; rw [h]

theorem CatOnly.toPlace {l m : Lib} (h : CatOnly l m) : PlaceOnly l m := by
  unfold CatOnly PlaceOnly at *; rw [h]

theorem PromptsOnly.toPost {l m : Lib} (h : PromptsOnly l m) : PostOnly l m := by
  unfold PromptsOnly PostOnly at *; rw [h]

theorem PromptsOnly.foldl {α : Type} (f : Lib → α → Lib) (hf : ∀ l a, PromptsOnly l (f l a)) (xs : List α) (l : Lib) :
    PromptsOnly l (xs.foldl f l) := by
  induction xs generalizing l with
  | nil => exact .refl l
  | cons x xs ih => exact (hf l x).trans (ih _)

theorem PlaceOnly.foldl {α : Type} (f : Lib → α → Lib) (hf : ∀ l a, PlaceOnly l (f l a)) (xs : List α) (l : Lib) :
    PlaceOnly l (xs.foldl f l) := by
  induction xs generalizing l with
  | nil => exact .refl l
  | cons x xs ih => exact (hf l x).trans (ih _)


/-! ## What follows of each field -/

theorem PromptsOnly.store {l m : Lib} (h : PromptsOnly l m) : m.store = l.store := by unfold PromptsOnly at h; rw [h]
theorem PromptsOnly.cat {l m : Lib} (h : PromptsOnly l m) : m.cat = l.cat := by unfold PromptsOnly at h; rw [h]
theorem PromptsOnly.place {l m : Lib} (h : PromptsOnly l m) : m.place = l.place := by unfold PromptsOnly at h; rw [h]
theorem PromptsOnly.drives {l m : Lib} (h : PromptsOnly l m) : m.drives = l.drives := by unfold PromptsOnly at h; rw [h]
theorem PromptsOnly.reqs {l m : Lib} (h : PromptsOnly l m) : m.reqs = l.reqs := by unfold PromptsOnly at h; rw [h]
theorem PromptsOnly.rail {l m : Lib} (h : PromptsOnly l m) : m.rail = l.rail := by unfold PromptsOnly at h; rw [h]
theorem PromptsOnly.acct {l m : Lib} (h : PromptsOnly l m) : m.acct = l.acct := by unfold PromptsOnly at h; rw [h]
theorem PromptsOnly.att {l m : Lib} (h : PromptsOnly l m) : m.att = l.att := by unfold PromptsOnly at h; rw [h]
theorem PromptsOnly.start {l m : Lib} (h : PromptsOnly l m) : m.start = l.start := by unfold PromptsOnly at h; rw [h]
theorem PromptsOnly.notes {l m : Lib} (h : PromptsOnly l m) : m.notes = l.notes := by unfold PromptsOnly at h; rw [h]
theorem CatOnly.store {l m : Lib} (h : CatOnly l m) : m.store = l.store := by unfold CatOnly at h; rw [h]
theorem CatOnly.place {l m : Lib} (h : CatOnly l m) : m.place = l.place := by unfold CatOnly at h; rw [h]
theorem CatOnly.drives {l m : Lib} (h : CatOnly l m) : m.drives = l.drives := by unfold CatOnly at h; rw [h]
theorem CatOnly.reqs {l m : Lib} (h : CatOnly l m) : m.reqs = l.reqs := by unfold CatOnly at h; rw [h]
theorem CatOnly.rail {l m : Lib} (h : CatOnly l m) : m.rail = l.rail := by unfold CatOnly at h; rw [h]
theorem CatOnly.acct {l m : Lib} (h : CatOnly l m) : m.acct = l.acct := by unfold CatOnly at h; rw [h]
theorem CatOnly.att {l m : Lib} (h : CatOnly l m) : m.att = l.att := by unfold CatOnly at h; rw [h]
theorem CatOnly.start {l m : Lib} (h : CatOnly l m) : m.start = l.start := by unfold CatOnly at h; rw [h]
theorem PlaceOnly.store {l m : Lib} (h : PlaceOnly l m) : m.store = l.store := by unfold PlaceOnly at h; rw [h]
theorem PlaceOnly.drives {l m : Lib} (h : PlaceOnly l m) : m.drives = l.drives := by unfold PlaceOnly at h; rw [h]
theorem PlaceOnly.reqs {l m : Lib} (h : PlaceOnly l m) : m.reqs = l.reqs := by unfold PlaceOnly at h; rw [h]
theorem PlaceOnly.rail {l m : Lib} (h : PlaceOnly l m) : m.rail = l.rail := by unfold PlaceOnly at h; rw [h]
theorem PlaceOnly.acct {l m : Lib} (h : PlaceOnly l m) : m.acct = l.acct := by unfold PlaceOnly at h; rw [h]
theorem PlaceOnly.att {l m : Lib} (h : PlaceOnly l m) : m.att = l.att := by unfold PlaceOnly at h; rw [h]
theorem PlaceOnly.start {l m : Lib} (h : PlaceOnly l m) : m.start = l.start := by unfold PlaceOnly at h; rw [h]
theorem PostOnly.store {l m : Lib} (h : PostOnly l m) : m.store = l.store := by unfold PostOnly at h; rw [h]
theorem PostOnly.cat {l m : Lib} (h : PostOnly l m) : m.cat = l.cat := by unfold PostOnly at h; rw [h]
theorem PostOnly.place {l m : Lib} (h : PostOnly l m) : m.place = l.place := by unfold PostOnly at h; rw [h]
theorem PostOnly.drives {l m : Lib} (h : PostOnly l m) : m.drives = l.drives := by unfold PostOnly at h; rw [h]
theorem PostOnly.rail {l m : Lib} (h : PostOnly l m) : m.rail = l.rail := by unfold PostOnly at h; rw [h]
theorem PostOnly.acct {l m : Lib} (h : PostOnly l m) : m.acct = l.acct := by unfold PostOnly at h; rw [h]
theorem PostOnly.att {l m : Lib} (h : PostOnly l m) : m.att = l.att := by unfold PostOnly at h; rw [h]
theorem PostOnly.start {l m : Lib} (h : PostOnly l m) : m.start = l.start := by unfold PostOnly at h; rw [h]
theorem PostOnly.notes {l m : Lib} (h : PostOnly l m) : m.notes = l.notes := by unfold PostOnly at h; rw [h]
theorem PostOnly.live {l m : Lib} (h : PostOnly l m) : m.reqs.live = l.reqs.live := by unfold PostOnly at h; rw [h]

namespace Lib

/-! ## The prompt operations -/

theorem setPrompt_only (k : Nat) (p : Option Prompt) (l : Lib) : PromptsOnly l (l.setPrompt k p) := rfl

theorem display_only (x : Nat × Prompt) (force : Bool) (l : Lib) : PromptsOnly l (l.display x force) := rfl

theorem noteStep_only (n : Nat) (l : Lib) : PromptsOnly l (l.noteStep n) := rfl

theorem presentFirst_only (l : Lib) : PromptsOnly l l.presentFirst := by
  unfold presentFirst; split
  · exact display_only _ _ _
  · rfl

theorem refresh_only (n : Nat) (force : Bool) (l : Lib) : PromptsOnly l (l.refresh n force) := by
  unfold refresh; split
  · split
    · exact display_only _ _ _
    · rfl
  · rfl

theorem fillSlot_only (g : Settings) (k : Nat) (d : Draft) (l : Lib) : PromptsOnly l (l.fillSlot g k d) := rfl

theorem postAt_only (g : Settings) (k : Nat) (d : Draft) (l : Lib) : PromptsOnly l (l.postAt g k d) := by
  unfold postAt; dsimp only
  split
  · exact (fillSlot_only g k d l).trans (display_only _ _ _)
  · split
    · exact (fillSlot_only g k d l).trans (display_only _ _ _)
    · exact fillSlot_only g k d l

theorem offerSlot_only (g : Settings) (l : Lib) : PromptsOnly l (l.offerSlot g) := by
  unfold offerSlot; split
  · exact PromptsOnly.trans (by rfl) (postAt_only _ _ _ _)
  · rfl

theorem emptySlot_only (k : Nat) (l : Lib) : PromptsOnly l (l.emptySlot k) := by
  unfold emptySlot; split
  · rfl
  · dsimp only; split
    · exact (setPrompt_only _ _ _).trans (presentFirst_only _)
    · exact setPrompt_only _ _ _

theorem withdrawSlot_only (g : Settings) (k : Nat) (l : Lib) : PromptsOnly l (l.withdrawSlot g k) := by
  unfold withdrawSlot; split
  · rfl
  · exact (emptySlot_only k l).trans (offerSlot_only g _)

theorem withdrawWhere_only (g : Settings) (test : Prompt → Bool) (l : Lib) :
    PromptsOnly l (l.withdrawWhere g test) :=
  PromptsOnly.foldl (fun l (x : Nat × Prompt) => l.withdrawSlot g x.1) (fun l x => withdrawSlot_only g x.1 l) _ l

theorem withdrawNotice_only (g : Settings) (kind : PromptKind) (test : PromptSubject → Bool) (l : Lib) :
    PromptsOnly l (l.withdrawNotice g kind test) := withdrawWhere_only g _ l

theorem postNotice_only (g : Settings) (kind : PromptKind) (s : PromptSubject) (d : Nat) (l : Lib) :
    PromptsOnly l (l.postNotice g kind s d) := by
  unfold postNotice; split
  · rfl
  · split
    · exact postAt_only _ _ _ _
    · split
      · exact (emptySlot_only _ _).trans (postAt_only _ _ _ _)
      · rfl

theorem dropWait_only (t : Nat) (l : Lib) : PromptsOnly l (l.dropWait t) := rfl

theorem clearRequestPrompt_only (g : Settings) (t : Nat) (l : Lib) : PromptsOnly l (l.clearRequestPrompt g t) :=
  (dropWait_only t l).trans (withdrawWhere_only g _ _)

theorem markWrongVolume_only (t : Nat) (wrong : Bool) (l : Lib) : PromptsOnly l (l.markWrongVolume t wrong) := by
  unfold markWrongVolume; split
  · split
    · exact (setPrompt_only _ _ _).trans (refresh_only _ _ _)
    · rfl
  · rfl

theorem joinPromptWaits_only (k : PromptKind) (t : Nat) (s : PromptSubject) (d : Nat) (l : Lib) :
    PostOnly l (l.joinPromptWaits k t s d) := by
  unfold joinPromptWaits; split <;> rfl

theorem postRequest_only (g : Settings) (k : PromptKind) (t : Nat) (s : PromptSubject) (d : Nat) (l : Lib) :
    PostOnly l (l.postRequest g k t s d) := by
  unfold postRequest; dsimp only
  refine PostOnly.trans (withdrawWhere_only g (fun p => p.isRequest && p.subject.tag = some t) l).toPost ?_
  split
  · exact (((dropWait_only t _).trans (emptySlot_only _ _)).trans (postAt_only _ _ _ _)).toPost
  · split
    · exact ((dropWait_only t _).trans (postAt_only _ _ _ _)).toPost
    · split
      · exact (((dropWait_only t _).trans (emptySlot_only _ _)).trans (postAt_only _ _ _ _)).toPost
      · exact joinPromptWaits_only _ _ _ _ _

/-! ## The catalogue operations -/

theorem updVol_only (s : Serial) (f : Volume → Volume) (l : Lib) : CatOnly l (l.updVol s f) := rfl

theorem judgeLow_only (g : Settings) (l : Lib) : CatOnly l (l.judgeLow g) := by
  unfold judgeLow; split
  · split <;> rfl
  · rfl

theorem evalLow_only (g : Settings) (l : Lib) : CatOnly l (l.evalLow g) := by
  unfold evalLow; dsimp only; split
  · exact judgeLow_only g l
  · exact (judgeLow_only g l).trans (withdrawNotice_only _ _ _ _).toCat

theorem orderJoined_only (was : List Serial) (l : Lib) : CatOnly l (l.orderJoined was) := rfl

theorem placeOnScratch_only (s : Serial) (l : Lib) : CatOnly l (l.placeOnScratch s) := rfl

theorem syncScratch_only (g : Settings) (s : Serial) (l : Lib) : CatOnly l (l.syncScratch g s) := by
  unfold syncScratch; dsimp only; split
  · exact placeOnScratch_only s l
  · exact (placeOnScratch_only s l).trans (evalLow_only _ _)

theorem changeVol_only (g : Settings) (s : Serial) (f : Volume → Volume) (l : Lib) :
    CatOnly l (l.changeVol g s f) := by
  unfold changeVol; dsimp only
  have h := (updVol_only s f l).trans (syncScratch_only g s _)
  split
  · exact h.trans (withdrawNotice_only _ _ _ _).toCat
  · exact h

theorem moveVol_only (g : Settings) (s : Serial) (st : VolState) (l : Lib) : CatOnly l (l.moveVol g s st) :=
  changeVol_only g s _ l

/-! ## The place operations -/

theorem setCell_only (n : Nat) (c : Cell) (l : Lib) : PlaceOnly l (l.setCell n c) := by
  unfold setCell; dsimp only; split <;> rfl

theorem reserveHome_only (g : Settings) (s : Serial) (n : Nat) (l : Lib) : PlaceOnly l (l.reserveHome g s n) :=
  (setCell_only n _ l).trans (changeVol_only g s _ _).toPlace

theorem clearHome_only (g : Settings) (s : Serial) (c : Cell) (l : Lib) : PlaceOnly l (l.clearHome g s c) := by
  unfold clearHome; split
  · exact (setCell_only _ c l).trans (changeVol_only g s _ _).toPlace
  · rfl

theorem clearMarks_only (t : Nat) (l : Lib) : PlaceOnly l (l.clearMarks t) :=
  PlaceOnly.foldl (fun l n => if l.cell n = .empty (some t) then l.setCell n (.empty none) else l)
    (fun l n => by split; exact setCell_only _ _ _; rfl) _ l

theorem updateRemove_only (g : Settings) (l : Lib) : PromptsOnly l (l.updateRemove g) := by
  unfold updateRemove; split
  · exact postNotice_only _ _ _ _ _
  · exact withdrawNotice_only _ _ _ _

theorem changeSlot_only (g : Settings) (k : Nat) (s : Slot) (l : Lib) : PlaceOnly l (l.changeSlot g k s) := by
  unfold changeSlot; dsimp only
  split
  · refine PlaceOnly.trans ?_ ((withdrawNotice_only _ _ _ _).trans (withdrawNotice_only _ _ _ _)).toCat.toPlace
    split <;> rfl
  · split <;> rfl

theorem setSlot_only (g : Settings) (k : Nat) (s : Slot) (l : Lib) : PlaceOnly l (l.setSlot g k s) :=
  (changeSlot_only g k s l).trans (updateRemove_only g _).toCat.toPlace

theorem rejectSlot_only (g : Settings) (k : Nat) (x : Option Serial) (w : Reject) (l : Lib) :
    PlaceOnly l (l.rejectSlot g k x w) :=
  (changeSlot_only g k _ l).trans ((postNotice_only _ _ _ _ _).trans (updateRemove_only _ _)).toCat.toPlace

theorem freePlaceSlot_only (g : Settings) (t : Nat) (l : Lib) : PlaceOnly l (l.freePlaceSlot g t) := by
  unfold freePlaceSlot; split
  · exact setSlot_only _ _ _ _
  · rfl

theorem emptyPlaceSlot_only (g : Settings) (t : Nat) (l : Lib) : PlaceOnly l (l.emptyPlaceSlot g t) := by
  unfold emptyPlaceSlot; split
  · exact changeSlot_only _ _ _ _
  · rfl

theorem declareMissing_only (g : Settings) (s : Serial) (c : Cell) (l : Lib) :
    PlaceOnly l (l.declareMissing g s c) := by
  unfold declareMissing; split
  · rfl
  · split
    · rfl
    · dsimp only
      refine PlaceOnly.trans ?_ (postNotice_only _ _ _ _ _).toCat.toPlace
      exact ((clearHome_only _ _ _ _).trans (moveVol_only _ _ _ _).toPlace).trans (by rfl)

/-! ## Each operation, each field -/

/-! ### setPrompt -/


/-! ### display -/

@[simp] theorem display_store (x : Nat × Prompt) (force : Bool) (l : Lib) : (l.display x force).store = l.store :=
  (display_only x force l).store
@[simp] theorem display_cat (x : Nat × Prompt) (force : Bool) (l : Lib) : (l.display x force).cat = l.cat :=
  (display_only x force l).cat
@[simp] theorem display_place (x : Nat × Prompt) (force : Bool) (l : Lib) : (l.display x force).place = l.place :=
  (display_only x force l).place
@[simp] theorem display_drives (x : Nat × Prompt) (force : Bool) (l : Lib) : (l.display x force).drives = l.drives :=
  (display_only x force l).drives
@[simp] theorem display_reqs (x : Nat × Prompt) (force : Bool) (l : Lib) : (l.display x force).reqs = l.reqs :=
  (display_only x force l).reqs
@[simp] theorem display_rail (x : Nat × Prompt) (force : Bool) (l : Lib) : (l.display x force).rail = l.rail :=
  (display_only x force l).rail
@[simp] theorem display_acct (x : Nat × Prompt) (force : Bool) (l : Lib) : (l.display x force).acct = l.acct :=
  (display_only x force l).acct
@[simp] theorem display_att (x : Nat × Prompt) (force : Bool) (l : Lib) : (l.display x force).att = l.att :=
  (display_only x force l).att
@[simp] theorem display_start (x : Nat × Prompt) (force : Bool) (l : Lib) : (l.display x force).start = l.start :=
  (display_only x force l).start
@[simp] theorem display_notes (x : Nat × Prompt) (force : Bool) (l : Lib) : (l.display x force).notes = l.notes :=
  (display_only x force l).notes

/-! ### presentFirst -/

@[simp] theorem presentFirst_store (l : Lib) : (l.presentFirst).store = l.store :=
  (presentFirst_only l).store
@[simp] theorem presentFirst_cat (l : Lib) : (l.presentFirst).cat = l.cat :=
  (presentFirst_only l).cat
@[simp] theorem presentFirst_place (l : Lib) : (l.presentFirst).place = l.place :=
  (presentFirst_only l).place
@[simp] theorem presentFirst_drives (l : Lib) : (l.presentFirst).drives = l.drives :=
  (presentFirst_only l).drives
@[simp] theorem presentFirst_reqs (l : Lib) : (l.presentFirst).reqs = l.reqs :=
  (presentFirst_only l).reqs
@[simp] theorem presentFirst_rail (l : Lib) : (l.presentFirst).rail = l.rail :=
  (presentFirst_only l).rail
@[simp] theorem presentFirst_acct (l : Lib) : (l.presentFirst).acct = l.acct :=
  (presentFirst_only l).acct
@[simp] theorem presentFirst_att (l : Lib) : (l.presentFirst).att = l.att :=
  (presentFirst_only l).att
@[simp] theorem presentFirst_start (l : Lib) : (l.presentFirst).start = l.start :=
  (presentFirst_only l).start
@[simp] theorem presentFirst_notes (l : Lib) : (l.presentFirst).notes = l.notes :=
  (presentFirst_only l).notes

/-! ### refresh -/

@[simp] theorem refresh_store (n : Nat) (force : Bool) (l : Lib) : (l.refresh n force).store = l.store :=
  (refresh_only n force l).store
@[simp] theorem refresh_cat (n : Nat) (force : Bool) (l : Lib) : (l.refresh n force).cat = l.cat :=
  (refresh_only n force l).cat
@[simp] theorem refresh_place (n : Nat) (force : Bool) (l : Lib) : (l.refresh n force).place = l.place :=
  (refresh_only n force l).place
@[simp] theorem refresh_drives (n : Nat) (force : Bool) (l : Lib) : (l.refresh n force).drives = l.drives :=
  (refresh_only n force l).drives
@[simp] theorem refresh_reqs (n : Nat) (force : Bool) (l : Lib) : (l.refresh n force).reqs = l.reqs :=
  (refresh_only n force l).reqs
@[simp] theorem refresh_rail (n : Nat) (force : Bool) (l : Lib) : (l.refresh n force).rail = l.rail :=
  (refresh_only n force l).rail
@[simp] theorem refresh_acct (n : Nat) (force : Bool) (l : Lib) : (l.refresh n force).acct = l.acct :=
  (refresh_only n force l).acct
@[simp] theorem refresh_att (n : Nat) (force : Bool) (l : Lib) : (l.refresh n force).att = l.att :=
  (refresh_only n force l).att
@[simp] theorem refresh_start (n : Nat) (force : Bool) (l : Lib) : (l.refresh n force).start = l.start :=
  (refresh_only n force l).start
@[simp] theorem refresh_notes (n : Nat) (force : Bool) (l : Lib) : (l.refresh n force).notes = l.notes :=
  (refresh_only n force l).notes

/-! ### fillSlot -/

@[simp] theorem fillSlot_store (g : Settings) (k : Nat) (d : Draft) (l : Lib) : (l.fillSlot g k d).store = l.store :=
  (fillSlot_only g k d l).store
@[simp] theorem fillSlot_cat (g : Settings) (k : Nat) (d : Draft) (l : Lib) : (l.fillSlot g k d).cat = l.cat :=
  (fillSlot_only g k d l).cat
@[simp] theorem fillSlot_place (g : Settings) (k : Nat) (d : Draft) (l : Lib) : (l.fillSlot g k d).place = l.place :=
  (fillSlot_only g k d l).place
@[simp] theorem fillSlot_drives (g : Settings) (k : Nat) (d : Draft) (l : Lib) : (l.fillSlot g k d).drives = l.drives :=
  (fillSlot_only g k d l).drives
@[simp] theorem fillSlot_reqs (g : Settings) (k : Nat) (d : Draft) (l : Lib) : (l.fillSlot g k d).reqs = l.reqs :=
  (fillSlot_only g k d l).reqs
@[simp] theorem fillSlot_rail (g : Settings) (k : Nat) (d : Draft) (l : Lib) : (l.fillSlot g k d).rail = l.rail :=
  (fillSlot_only g k d l).rail
@[simp] theorem fillSlot_acct (g : Settings) (k : Nat) (d : Draft) (l : Lib) : (l.fillSlot g k d).acct = l.acct :=
  (fillSlot_only g k d l).acct
@[simp] theorem fillSlot_att (g : Settings) (k : Nat) (d : Draft) (l : Lib) : (l.fillSlot g k d).att = l.att :=
  (fillSlot_only g k d l).att
@[simp] theorem fillSlot_start (g : Settings) (k : Nat) (d : Draft) (l : Lib) : (l.fillSlot g k d).start = l.start :=
  (fillSlot_only g k d l).start
@[simp] theorem fillSlot_notes (g : Settings) (k : Nat) (d : Draft) (l : Lib) : (l.fillSlot g k d).notes = l.notes :=
  (fillSlot_only g k d l).notes

/-! ### postAt -/

@[simp] theorem postAt_store (g : Settings) (k : Nat) (d : Draft) (l : Lib) : (l.postAt g k d).store = l.store :=
  (postAt_only g k d l).store
@[simp] theorem postAt_cat (g : Settings) (k : Nat) (d : Draft) (l : Lib) : (l.postAt g k d).cat = l.cat :=
  (postAt_only g k d l).cat
@[simp] theorem postAt_place (g : Settings) (k : Nat) (d : Draft) (l : Lib) : (l.postAt g k d).place = l.place :=
  (postAt_only g k d l).place
@[simp] theorem postAt_drives (g : Settings) (k : Nat) (d : Draft) (l : Lib) : (l.postAt g k d).drives = l.drives :=
  (postAt_only g k d l).drives
@[simp] theorem postAt_reqs (g : Settings) (k : Nat) (d : Draft) (l : Lib) : (l.postAt g k d).reqs = l.reqs :=
  (postAt_only g k d l).reqs
@[simp] theorem postAt_rail (g : Settings) (k : Nat) (d : Draft) (l : Lib) : (l.postAt g k d).rail = l.rail :=
  (postAt_only g k d l).rail
@[simp] theorem postAt_acct (g : Settings) (k : Nat) (d : Draft) (l : Lib) : (l.postAt g k d).acct = l.acct :=
  (postAt_only g k d l).acct
@[simp] theorem postAt_att (g : Settings) (k : Nat) (d : Draft) (l : Lib) : (l.postAt g k d).att = l.att :=
  (postAt_only g k d l).att
@[simp] theorem postAt_start (g : Settings) (k : Nat) (d : Draft) (l : Lib) : (l.postAt g k d).start = l.start :=
  (postAt_only g k d l).start
@[simp] theorem postAt_notes (g : Settings) (k : Nat) (d : Draft) (l : Lib) : (l.postAt g k d).notes = l.notes :=
  (postAt_only g k d l).notes

/-! ### offerSlot -/

@[simp] theorem offerSlot_store (g : Settings) (l : Lib) : (l.offerSlot g).store = l.store :=
  (offerSlot_only g l).store
@[simp] theorem offerSlot_cat (g : Settings) (l : Lib) : (l.offerSlot g).cat = l.cat :=
  (offerSlot_only g l).cat
@[simp] theorem offerSlot_place (g : Settings) (l : Lib) : (l.offerSlot g).place = l.place :=
  (offerSlot_only g l).place
@[simp] theorem offerSlot_drives (g : Settings) (l : Lib) : (l.offerSlot g).drives = l.drives :=
  (offerSlot_only g l).drives
@[simp] theorem offerSlot_reqs (g : Settings) (l : Lib) : (l.offerSlot g).reqs = l.reqs :=
  (offerSlot_only g l).reqs
@[simp] theorem offerSlot_rail (g : Settings) (l : Lib) : (l.offerSlot g).rail = l.rail :=
  (offerSlot_only g l).rail
@[simp] theorem offerSlot_acct (g : Settings) (l : Lib) : (l.offerSlot g).acct = l.acct :=
  (offerSlot_only g l).acct
@[simp] theorem offerSlot_att (g : Settings) (l : Lib) : (l.offerSlot g).att = l.att :=
  (offerSlot_only g l).att
@[simp] theorem offerSlot_start (g : Settings) (l : Lib) : (l.offerSlot g).start = l.start :=
  (offerSlot_only g l).start
@[simp] theorem offerSlot_notes (g : Settings) (l : Lib) : (l.offerSlot g).notes = l.notes :=
  (offerSlot_only g l).notes

/-! ### emptySlot -/

@[simp] theorem emptySlot_store (k : Nat) (l : Lib) : (l.emptySlot k).store = l.store :=
  (emptySlot_only k l).store
@[simp] theorem emptySlot_cat (k : Nat) (l : Lib) : (l.emptySlot k).cat = l.cat :=
  (emptySlot_only k l).cat
@[simp] theorem emptySlot_place (k : Nat) (l : Lib) : (l.emptySlot k).place = l.place :=
  (emptySlot_only k l).place
@[simp] theorem emptySlot_drives (k : Nat) (l : Lib) : (l.emptySlot k).drives = l.drives :=
  (emptySlot_only k l).drives
@[simp] theorem emptySlot_reqs (k : Nat) (l : Lib) : (l.emptySlot k).reqs = l.reqs :=
  (emptySlot_only k l).reqs
@[simp] theorem emptySlot_rail (k : Nat) (l : Lib) : (l.emptySlot k).rail = l.rail :=
  (emptySlot_only k l).rail
@[simp] theorem emptySlot_acct (k : Nat) (l : Lib) : (l.emptySlot k).acct = l.acct :=
  (emptySlot_only k l).acct
@[simp] theorem emptySlot_att (k : Nat) (l : Lib) : (l.emptySlot k).att = l.att :=
  (emptySlot_only k l).att
@[simp] theorem emptySlot_start (k : Nat) (l : Lib) : (l.emptySlot k).start = l.start :=
  (emptySlot_only k l).start
@[simp] theorem emptySlot_notes (k : Nat) (l : Lib) : (l.emptySlot k).notes = l.notes :=
  (emptySlot_only k l).notes

/-! ### withdrawSlot -/

@[simp] theorem withdrawSlot_store (g : Settings) (k : Nat) (l : Lib) : (l.withdrawSlot g k).store = l.store :=
  (withdrawSlot_only g k l).store
@[simp] theorem withdrawSlot_cat (g : Settings) (k : Nat) (l : Lib) : (l.withdrawSlot g k).cat = l.cat :=
  (withdrawSlot_only g k l).cat
@[simp] theorem withdrawSlot_place (g : Settings) (k : Nat) (l : Lib) : (l.withdrawSlot g k).place = l.place :=
  (withdrawSlot_only g k l).place
@[simp] theorem withdrawSlot_drives (g : Settings) (k : Nat) (l : Lib) : (l.withdrawSlot g k).drives = l.drives :=
  (withdrawSlot_only g k l).drives
@[simp] theorem withdrawSlot_reqs (g : Settings) (k : Nat) (l : Lib) : (l.withdrawSlot g k).reqs = l.reqs :=
  (withdrawSlot_only g k l).reqs
@[simp] theorem withdrawSlot_rail (g : Settings) (k : Nat) (l : Lib) : (l.withdrawSlot g k).rail = l.rail :=
  (withdrawSlot_only g k l).rail
@[simp] theorem withdrawSlot_acct (g : Settings) (k : Nat) (l : Lib) : (l.withdrawSlot g k).acct = l.acct :=
  (withdrawSlot_only g k l).acct
@[simp] theorem withdrawSlot_att (g : Settings) (k : Nat) (l : Lib) : (l.withdrawSlot g k).att = l.att :=
  (withdrawSlot_only g k l).att
@[simp] theorem withdrawSlot_start (g : Settings) (k : Nat) (l : Lib) : (l.withdrawSlot g k).start = l.start :=
  (withdrawSlot_only g k l).start
@[simp] theorem withdrawSlot_notes (g : Settings) (k : Nat) (l : Lib) : (l.withdrawSlot g k).notes = l.notes :=
  (withdrawSlot_only g k l).notes

/-! ### withdrawWhere -/

@[simp] theorem withdrawWhere_store (g : Settings) (test : Prompt → Bool) (l : Lib) : (l.withdrawWhere g test).store = l.store :=
  (withdrawWhere_only g test l).store
@[simp] theorem withdrawWhere_cat (g : Settings) (test : Prompt → Bool) (l : Lib) : (l.withdrawWhere g test).cat = l.cat :=
  (withdrawWhere_only g test l).cat
@[simp] theorem withdrawWhere_place (g : Settings) (test : Prompt → Bool) (l : Lib) : (l.withdrawWhere g test).place = l.place :=
  (withdrawWhere_only g test l).place
@[simp] theorem withdrawWhere_drives (g : Settings) (test : Prompt → Bool) (l : Lib) : (l.withdrawWhere g test).drives = l.drives :=
  (withdrawWhere_only g test l).drives
@[simp] theorem withdrawWhere_reqs (g : Settings) (test : Prompt → Bool) (l : Lib) : (l.withdrawWhere g test).reqs = l.reqs :=
  (withdrawWhere_only g test l).reqs
@[simp] theorem withdrawWhere_rail (g : Settings) (test : Prompt → Bool) (l : Lib) : (l.withdrawWhere g test).rail = l.rail :=
  (withdrawWhere_only g test l).rail
@[simp] theorem withdrawWhere_acct (g : Settings) (test : Prompt → Bool) (l : Lib) : (l.withdrawWhere g test).acct = l.acct :=
  (withdrawWhere_only g test l).acct
@[simp] theorem withdrawWhere_att (g : Settings) (test : Prompt → Bool) (l : Lib) : (l.withdrawWhere g test).att = l.att :=
  (withdrawWhere_only g test l).att
@[simp] theorem withdrawWhere_start (g : Settings) (test : Prompt → Bool) (l : Lib) : (l.withdrawWhere g test).start = l.start :=
  (withdrawWhere_only g test l).start
@[simp] theorem withdrawWhere_notes (g : Settings) (test : Prompt → Bool) (l : Lib) : (l.withdrawWhere g test).notes = l.notes :=
  (withdrawWhere_only g test l).notes

/-! ### withdrawNotice -/

@[simp] theorem withdrawNotice_store (g : Settings) (kind : PromptKind) (test : PromptSubject → Bool) (l : Lib) : (l.withdrawNotice g kind test).store = l.store :=
  (withdrawNotice_only g kind test l).store
@[simp] theorem withdrawNotice_cat (g : Settings) (kind : PromptKind) (test : PromptSubject → Bool) (l : Lib) : (l.withdrawNotice g kind test).cat = l.cat :=
  (withdrawNotice_only g kind test l).cat
@[simp] theorem withdrawNotice_place (g : Settings) (kind : PromptKind) (test : PromptSubject → Bool) (l : Lib) : (l.withdrawNotice g kind test).place = l.place :=
  (withdrawNotice_only g kind test l).place
@[simp] theorem withdrawNotice_drives (g : Settings) (kind : PromptKind) (test : PromptSubject → Bool) (l : Lib) : (l.withdrawNotice g kind test).drives = l.drives :=
  (withdrawNotice_only g kind test l).drives
@[simp] theorem withdrawNotice_reqs (g : Settings) (kind : PromptKind) (test : PromptSubject → Bool) (l : Lib) : (l.withdrawNotice g kind test).reqs = l.reqs :=
  (withdrawNotice_only g kind test l).reqs
@[simp] theorem withdrawNotice_rail (g : Settings) (kind : PromptKind) (test : PromptSubject → Bool) (l : Lib) : (l.withdrawNotice g kind test).rail = l.rail :=
  (withdrawNotice_only g kind test l).rail
@[simp] theorem withdrawNotice_acct (g : Settings) (kind : PromptKind) (test : PromptSubject → Bool) (l : Lib) : (l.withdrawNotice g kind test).acct = l.acct :=
  (withdrawNotice_only g kind test l).acct
@[simp] theorem withdrawNotice_att (g : Settings) (kind : PromptKind) (test : PromptSubject → Bool) (l : Lib) : (l.withdrawNotice g kind test).att = l.att :=
  (withdrawNotice_only g kind test l).att
@[simp] theorem withdrawNotice_start (g : Settings) (kind : PromptKind) (test : PromptSubject → Bool) (l : Lib) : (l.withdrawNotice g kind test).start = l.start :=
  (withdrawNotice_only g kind test l).start
@[simp] theorem withdrawNotice_notes (g : Settings) (kind : PromptKind) (test : PromptSubject → Bool) (l : Lib) : (l.withdrawNotice g kind test).notes = l.notes :=
  (withdrawNotice_only g kind test l).notes

/-! ### postNotice -/

@[simp] theorem postNotice_store (g : Settings) (kind : PromptKind) (s : PromptSubject) (d : Nat) (l : Lib) : (l.postNotice g kind s d).store = l.store :=
  (postNotice_only g kind s d l).store
@[simp] theorem postNotice_cat (g : Settings) (kind : PromptKind) (s : PromptSubject) (d : Nat) (l : Lib) : (l.postNotice g kind s d).cat = l.cat :=
  (postNotice_only g kind s d l).cat
@[simp] theorem postNotice_place (g : Settings) (kind : PromptKind) (s : PromptSubject) (d : Nat) (l : Lib) : (l.postNotice g kind s d).place = l.place :=
  (postNotice_only g kind s d l).place
@[simp] theorem postNotice_drives (g : Settings) (kind : PromptKind) (s : PromptSubject) (d : Nat) (l : Lib) : (l.postNotice g kind s d).drives = l.drives :=
  (postNotice_only g kind s d l).drives
@[simp] theorem postNotice_reqs (g : Settings) (kind : PromptKind) (s : PromptSubject) (d : Nat) (l : Lib) : (l.postNotice g kind s d).reqs = l.reqs :=
  (postNotice_only g kind s d l).reqs
@[simp] theorem postNotice_rail (g : Settings) (kind : PromptKind) (s : PromptSubject) (d : Nat) (l : Lib) : (l.postNotice g kind s d).rail = l.rail :=
  (postNotice_only g kind s d l).rail
@[simp] theorem postNotice_acct (g : Settings) (kind : PromptKind) (s : PromptSubject) (d : Nat) (l : Lib) : (l.postNotice g kind s d).acct = l.acct :=
  (postNotice_only g kind s d l).acct
@[simp] theorem postNotice_att (g : Settings) (kind : PromptKind) (s : PromptSubject) (d : Nat) (l : Lib) : (l.postNotice g kind s d).att = l.att :=
  (postNotice_only g kind s d l).att
@[simp] theorem postNotice_start (g : Settings) (kind : PromptKind) (s : PromptSubject) (d : Nat) (l : Lib) : (l.postNotice g kind s d).start = l.start :=
  (postNotice_only g kind s d l).start
@[simp] theorem postNotice_notes (g : Settings) (kind : PromptKind) (s : PromptSubject) (d : Nat) (l : Lib) : (l.postNotice g kind s d).notes = l.notes :=
  (postNotice_only g kind s d l).notes

/-! ### dropWait -/

@[simp] theorem dropWait_store (t : Nat) (l : Lib) : (l.dropWait t).store = l.store :=
  (dropWait_only t l).store
@[simp] theorem dropWait_cat (t : Nat) (l : Lib) : (l.dropWait t).cat = l.cat :=
  (dropWait_only t l).cat
@[simp] theorem dropWait_place (t : Nat) (l : Lib) : (l.dropWait t).place = l.place :=
  (dropWait_only t l).place
@[simp] theorem dropWait_drives (t : Nat) (l : Lib) : (l.dropWait t).drives = l.drives :=
  (dropWait_only t l).drives
@[simp] theorem dropWait_reqs (t : Nat) (l : Lib) : (l.dropWait t).reqs = l.reqs :=
  (dropWait_only t l).reqs
@[simp] theorem dropWait_rail (t : Nat) (l : Lib) : (l.dropWait t).rail = l.rail :=
  (dropWait_only t l).rail
@[simp] theorem dropWait_acct (t : Nat) (l : Lib) : (l.dropWait t).acct = l.acct :=
  (dropWait_only t l).acct
@[simp] theorem dropWait_att (t : Nat) (l : Lib) : (l.dropWait t).att = l.att :=
  (dropWait_only t l).att
@[simp] theorem dropWait_start (t : Nat) (l : Lib) : (l.dropWait t).start = l.start :=
  (dropWait_only t l).start
@[simp] theorem dropWait_notes (t : Nat) (l : Lib) : (l.dropWait t).notes = l.notes :=
  (dropWait_only t l).notes

/-! ### clearRequestPrompt -/

@[simp] theorem clearRequestPrompt_store (g : Settings) (t : Nat) (l : Lib) : (l.clearRequestPrompt g t).store = l.store :=
  (clearRequestPrompt_only g t l).store
@[simp] theorem clearRequestPrompt_cat (g : Settings) (t : Nat) (l : Lib) : (l.clearRequestPrompt g t).cat = l.cat :=
  (clearRequestPrompt_only g t l).cat
@[simp] theorem clearRequestPrompt_place (g : Settings) (t : Nat) (l : Lib) : (l.clearRequestPrompt g t).place = l.place :=
  (clearRequestPrompt_only g t l).place
@[simp] theorem clearRequestPrompt_drives (g : Settings) (t : Nat) (l : Lib) : (l.clearRequestPrompt g t).drives = l.drives :=
  (clearRequestPrompt_only g t l).drives
@[simp] theorem clearRequestPrompt_reqs (g : Settings) (t : Nat) (l : Lib) : (l.clearRequestPrompt g t).reqs = l.reqs :=
  (clearRequestPrompt_only g t l).reqs
@[simp] theorem clearRequestPrompt_rail (g : Settings) (t : Nat) (l : Lib) : (l.clearRequestPrompt g t).rail = l.rail :=
  (clearRequestPrompt_only g t l).rail
@[simp] theorem clearRequestPrompt_acct (g : Settings) (t : Nat) (l : Lib) : (l.clearRequestPrompt g t).acct = l.acct :=
  (clearRequestPrompt_only g t l).acct
@[simp] theorem clearRequestPrompt_att (g : Settings) (t : Nat) (l : Lib) : (l.clearRequestPrompt g t).att = l.att :=
  (clearRequestPrompt_only g t l).att
@[simp] theorem clearRequestPrompt_start (g : Settings) (t : Nat) (l : Lib) : (l.clearRequestPrompt g t).start = l.start :=
  (clearRequestPrompt_only g t l).start
@[simp] theorem clearRequestPrompt_notes (g : Settings) (t : Nat) (l : Lib) : (l.clearRequestPrompt g t).notes = l.notes :=
  (clearRequestPrompt_only g t l).notes

/-! ### markWrongVolume -/

@[simp] theorem markWrongVolume_store (t : Nat) (wrong : Bool) (l : Lib) : (l.markWrongVolume t wrong).store = l.store :=
  (markWrongVolume_only t wrong l).store
@[simp] theorem markWrongVolume_cat (t : Nat) (wrong : Bool) (l : Lib) : (l.markWrongVolume t wrong).cat = l.cat :=
  (markWrongVolume_only t wrong l).cat
@[simp] theorem markWrongVolume_place (t : Nat) (wrong : Bool) (l : Lib) : (l.markWrongVolume t wrong).place = l.place :=
  (markWrongVolume_only t wrong l).place
@[simp] theorem markWrongVolume_drives (t : Nat) (wrong : Bool) (l : Lib) : (l.markWrongVolume t wrong).drives = l.drives :=
  (markWrongVolume_only t wrong l).drives
@[simp] theorem markWrongVolume_reqs (t : Nat) (wrong : Bool) (l : Lib) : (l.markWrongVolume t wrong).reqs = l.reqs :=
  (markWrongVolume_only t wrong l).reqs
@[simp] theorem markWrongVolume_rail (t : Nat) (wrong : Bool) (l : Lib) : (l.markWrongVolume t wrong).rail = l.rail :=
  (markWrongVolume_only t wrong l).rail
@[simp] theorem markWrongVolume_acct (t : Nat) (wrong : Bool) (l : Lib) : (l.markWrongVolume t wrong).acct = l.acct :=
  (markWrongVolume_only t wrong l).acct
@[simp] theorem markWrongVolume_att (t : Nat) (wrong : Bool) (l : Lib) : (l.markWrongVolume t wrong).att = l.att :=
  (markWrongVolume_only t wrong l).att
@[simp] theorem markWrongVolume_start (t : Nat) (wrong : Bool) (l : Lib) : (l.markWrongVolume t wrong).start = l.start :=
  (markWrongVolume_only t wrong l).start
@[simp] theorem markWrongVolume_notes (t : Nat) (wrong : Bool) (l : Lib) : (l.markWrongVolume t wrong).notes = l.notes :=
  (markWrongVolume_only t wrong l).notes

/-! ### joinPromptWaits -/

@[simp] theorem joinPromptWaits_store (k : PromptKind) (t : Nat) (s : PromptSubject) (d : Nat) (l : Lib) : (l.joinPromptWaits k t s d).store = l.store :=
  (joinPromptWaits_only k t s d l).store
@[simp] theorem joinPromptWaits_cat (k : PromptKind) (t : Nat) (s : PromptSubject) (d : Nat) (l : Lib) : (l.joinPromptWaits k t s d).cat = l.cat :=
  (joinPromptWaits_only k t s d l).cat
@[simp] theorem joinPromptWaits_place (k : PromptKind) (t : Nat) (s : PromptSubject) (d : Nat) (l : Lib) : (l.joinPromptWaits k t s d).place = l.place :=
  (joinPromptWaits_only k t s d l).place
@[simp] theorem joinPromptWaits_drives (k : PromptKind) (t : Nat) (s : PromptSubject) (d : Nat) (l : Lib) : (l.joinPromptWaits k t s d).drives = l.drives :=
  (joinPromptWaits_only k t s d l).drives
@[simp] theorem joinPromptWaits_rail (k : PromptKind) (t : Nat) (s : PromptSubject) (d : Nat) (l : Lib) : (l.joinPromptWaits k t s d).rail = l.rail :=
  (joinPromptWaits_only k t s d l).rail
@[simp] theorem joinPromptWaits_acct (k : PromptKind) (t : Nat) (s : PromptSubject) (d : Nat) (l : Lib) : (l.joinPromptWaits k t s d).acct = l.acct :=
  (joinPromptWaits_only k t s d l).acct
@[simp] theorem joinPromptWaits_att (k : PromptKind) (t : Nat) (s : PromptSubject) (d : Nat) (l : Lib) : (l.joinPromptWaits k t s d).att = l.att :=
  (joinPromptWaits_only k t s d l).att
@[simp] theorem joinPromptWaits_start (k : PromptKind) (t : Nat) (s : PromptSubject) (d : Nat) (l : Lib) : (l.joinPromptWaits k t s d).start = l.start :=
  (joinPromptWaits_only k t s d l).start
@[simp] theorem joinPromptWaits_notes (k : PromptKind) (t : Nat) (s : PromptSubject) (d : Nat) (l : Lib) : (l.joinPromptWaits k t s d).notes = l.notes :=
  (joinPromptWaits_only k t s d l).notes
@[simp] theorem joinPromptWaits_live (k : PromptKind) (t : Nat) (s : PromptSubject) (d : Nat) (l : Lib) : (l.joinPromptWaits k t s d).reqs.live = l.reqs.live :=
  (joinPromptWaits_only k t s d l).live

/-! ### postRequest -/

@[simp] theorem postRequest_store (g : Settings) (k : PromptKind) (t : Nat) (s : PromptSubject) (d : Nat) (l : Lib) : (l.postRequest g k t s d).store = l.store :=
  (postRequest_only g k t s d l).store
@[simp] theorem postRequest_cat (g : Settings) (k : PromptKind) (t : Nat) (s : PromptSubject) (d : Nat) (l : Lib) : (l.postRequest g k t s d).cat = l.cat :=
  (postRequest_only g k t s d l).cat
@[simp] theorem postRequest_place (g : Settings) (k : PromptKind) (t : Nat) (s : PromptSubject) (d : Nat) (l : Lib) : (l.postRequest g k t s d).place = l.place :=
  (postRequest_only g k t s d l).place
@[simp] theorem postRequest_drives (g : Settings) (k : PromptKind) (t : Nat) (s : PromptSubject) (d : Nat) (l : Lib) : (l.postRequest g k t s d).drives = l.drives :=
  (postRequest_only g k t s d l).drives
@[simp] theorem postRequest_rail (g : Settings) (k : PromptKind) (t : Nat) (s : PromptSubject) (d : Nat) (l : Lib) : (l.postRequest g k t s d).rail = l.rail :=
  (postRequest_only g k t s d l).rail
@[simp] theorem postRequest_acct (g : Settings) (k : PromptKind) (t : Nat) (s : PromptSubject) (d : Nat) (l : Lib) : (l.postRequest g k t s d).acct = l.acct :=
  (postRequest_only g k t s d l).acct
@[simp] theorem postRequest_att (g : Settings) (k : PromptKind) (t : Nat) (s : PromptSubject) (d : Nat) (l : Lib) : (l.postRequest g k t s d).att = l.att :=
  (postRequest_only g k t s d l).att
@[simp] theorem postRequest_start (g : Settings) (k : PromptKind) (t : Nat) (s : PromptSubject) (d : Nat) (l : Lib) : (l.postRequest g k t s d).start = l.start :=
  (postRequest_only g k t s d l).start
@[simp] theorem postRequest_notes (g : Settings) (k : PromptKind) (t : Nat) (s : PromptSubject) (d : Nat) (l : Lib) : (l.postRequest g k t s d).notes = l.notes :=
  (postRequest_only g k t s d l).notes
@[simp] theorem postRequest_live (g : Settings) (k : PromptKind) (t : Nat) (s : PromptSubject) (d : Nat) (l : Lib) : (l.postRequest g k t s d).reqs.live = l.reqs.live :=
  (postRequest_only g k t s d l).live

/-! ### updVol -/


/-! ### evalLow -/

@[simp] theorem evalLow_store (g : Settings) (l : Lib) : (l.evalLow g).store = l.store :=
  (evalLow_only g l).store
@[simp] theorem evalLow_place (g : Settings) (l : Lib) : (l.evalLow g).place = l.place :=
  (evalLow_only g l).place
@[simp] theorem evalLow_drives (g : Settings) (l : Lib) : (l.evalLow g).drives = l.drives :=
  (evalLow_only g l).drives
@[simp] theorem evalLow_reqs (g : Settings) (l : Lib) : (l.evalLow g).reqs = l.reqs :=
  (evalLow_only g l).reqs
@[simp] theorem evalLow_rail (g : Settings) (l : Lib) : (l.evalLow g).rail = l.rail :=
  (evalLow_only g l).rail
@[simp] theorem evalLow_acct (g : Settings) (l : Lib) : (l.evalLow g).acct = l.acct :=
  (evalLow_only g l).acct
@[simp] theorem evalLow_att (g : Settings) (l : Lib) : (l.evalLow g).att = l.att :=
  (evalLow_only g l).att
@[simp] theorem evalLow_start (g : Settings) (l : Lib) : (l.evalLow g).start = l.start :=
  (evalLow_only g l).start

/-! ### placeOnScratch -/


/-! ### syncScratch -/

@[simp] theorem syncScratch_store (g : Settings) (s : Serial) (l : Lib) : (l.syncScratch g s).store = l.store :=
  (syncScratch_only g s l).store
@[simp] theorem syncScratch_place (g : Settings) (s : Serial) (l : Lib) : (l.syncScratch g s).place = l.place :=
  (syncScratch_only g s l).place
@[simp] theorem syncScratch_drives (g : Settings) (s : Serial) (l : Lib) : (l.syncScratch g s).drives = l.drives :=
  (syncScratch_only g s l).drives
@[simp] theorem syncScratch_reqs (g : Settings) (s : Serial) (l : Lib) : (l.syncScratch g s).reqs = l.reqs :=
  (syncScratch_only g s l).reqs
@[simp] theorem syncScratch_rail (g : Settings) (s : Serial) (l : Lib) : (l.syncScratch g s).rail = l.rail :=
  (syncScratch_only g s l).rail
@[simp] theorem syncScratch_acct (g : Settings) (s : Serial) (l : Lib) : (l.syncScratch g s).acct = l.acct :=
  (syncScratch_only g s l).acct
@[simp] theorem syncScratch_att (g : Settings) (s : Serial) (l : Lib) : (l.syncScratch g s).att = l.att :=
  (syncScratch_only g s l).att
@[simp] theorem syncScratch_start (g : Settings) (s : Serial) (l : Lib) : (l.syncScratch g s).start = l.start :=
  (syncScratch_only g s l).start

/-! ### changeVol -/

@[simp] theorem changeVol_store (g : Settings) (s : Serial) (f : Volume → Volume) (l : Lib) : (l.changeVol g s f).store = l.store :=
  (changeVol_only g s f l).store
@[simp] theorem changeVol_place (g : Settings) (s : Serial) (f : Volume → Volume) (l : Lib) : (l.changeVol g s f).place = l.place :=
  (changeVol_only g s f l).place
@[simp] theorem changeVol_drives (g : Settings) (s : Serial) (f : Volume → Volume) (l : Lib) : (l.changeVol g s f).drives = l.drives :=
  (changeVol_only g s f l).drives
@[simp] theorem changeVol_reqs (g : Settings) (s : Serial) (f : Volume → Volume) (l : Lib) : (l.changeVol g s f).reqs = l.reqs :=
  (changeVol_only g s f l).reqs
@[simp] theorem changeVol_rail (g : Settings) (s : Serial) (f : Volume → Volume) (l : Lib) : (l.changeVol g s f).rail = l.rail :=
  (changeVol_only g s f l).rail
@[simp] theorem changeVol_acct (g : Settings) (s : Serial) (f : Volume → Volume) (l : Lib) : (l.changeVol g s f).acct = l.acct :=
  (changeVol_only g s f l).acct
@[simp] theorem changeVol_att (g : Settings) (s : Serial) (f : Volume → Volume) (l : Lib) : (l.changeVol g s f).att = l.att :=
  (changeVol_only g s f l).att
@[simp] theorem changeVol_start (g : Settings) (s : Serial) (f : Volume → Volume) (l : Lib) : (l.changeVol g s f).start = l.start :=
  (changeVol_only g s f l).start

/-! ### moveVol -/

@[simp] theorem moveVol_store (g : Settings) (s : Serial) (st : VolState) (l : Lib) : (l.moveVol g s st).store = l.store :=
  (moveVol_only g s st l).store
@[simp] theorem moveVol_place (g : Settings) (s : Serial) (st : VolState) (l : Lib) : (l.moveVol g s st).place = l.place :=
  (moveVol_only g s st l).place
@[simp] theorem moveVol_drives (g : Settings) (s : Serial) (st : VolState) (l : Lib) : (l.moveVol g s st).drives = l.drives :=
  (moveVol_only g s st l).drives
@[simp] theorem moveVol_reqs (g : Settings) (s : Serial) (st : VolState) (l : Lib) : (l.moveVol g s st).reqs = l.reqs :=
  (moveVol_only g s st l).reqs
@[simp] theorem moveVol_rail (g : Settings) (s : Serial) (st : VolState) (l : Lib) : (l.moveVol g s st).rail = l.rail :=
  (moveVol_only g s st l).rail
@[simp] theorem moveVol_acct (g : Settings) (s : Serial) (st : VolState) (l : Lib) : (l.moveVol g s st).acct = l.acct :=
  (moveVol_only g s st l).acct
@[simp] theorem moveVol_att (g : Settings) (s : Serial) (st : VolState) (l : Lib) : (l.moveVol g s st).att = l.att :=
  (moveVol_only g s st l).att
@[simp] theorem moveVol_start (g : Settings) (s : Serial) (st : VolState) (l : Lib) : (l.moveVol g s st).start = l.start :=
  (moveVol_only g s st l).start

/-! ### setCell -/

@[simp] theorem setCell_store (n : Nat) (c : Cell) (l : Lib) : (l.setCell n c).store = l.store :=
  (setCell_only n c l).store
@[simp] theorem setCell_drives (n : Nat) (c : Cell) (l : Lib) : (l.setCell n c).drives = l.drives :=
  (setCell_only n c l).drives
@[simp] theorem setCell_reqs (n : Nat) (c : Cell) (l : Lib) : (l.setCell n c).reqs = l.reqs :=
  (setCell_only n c l).reqs
@[simp] theorem setCell_rail (n : Nat) (c : Cell) (l : Lib) : (l.setCell n c).rail = l.rail :=
  (setCell_only n c l).rail
@[simp] theorem setCell_acct (n : Nat) (c : Cell) (l : Lib) : (l.setCell n c).acct = l.acct :=
  (setCell_only n c l).acct
@[simp] theorem setCell_att (n : Nat) (c : Cell) (l : Lib) : (l.setCell n c).att = l.att :=
  (setCell_only n c l).att
@[simp] theorem setCell_start (n : Nat) (c : Cell) (l : Lib) : (l.setCell n c).start = l.start :=
  (setCell_only n c l).start

/-! ### reserveHome -/

@[simp] theorem reserveHome_store (g : Settings) (s : Serial) (n : Nat) (l : Lib) : (l.reserveHome g s n).store = l.store :=
  (reserveHome_only g s n l).store
@[simp] theorem reserveHome_drives (g : Settings) (s : Serial) (n : Nat) (l : Lib) : (l.reserveHome g s n).drives = l.drives :=
  (reserveHome_only g s n l).drives
@[simp] theorem reserveHome_reqs (g : Settings) (s : Serial) (n : Nat) (l : Lib) : (l.reserveHome g s n).reqs = l.reqs :=
  (reserveHome_only g s n l).reqs
@[simp] theorem reserveHome_rail (g : Settings) (s : Serial) (n : Nat) (l : Lib) : (l.reserveHome g s n).rail = l.rail :=
  (reserveHome_only g s n l).rail
@[simp] theorem reserveHome_acct (g : Settings) (s : Serial) (n : Nat) (l : Lib) : (l.reserveHome g s n).acct = l.acct :=
  (reserveHome_only g s n l).acct
@[simp] theorem reserveHome_att (g : Settings) (s : Serial) (n : Nat) (l : Lib) : (l.reserveHome g s n).att = l.att :=
  (reserveHome_only g s n l).att
@[simp] theorem reserveHome_start (g : Settings) (s : Serial) (n : Nat) (l : Lib) : (l.reserveHome g s n).start = l.start :=
  (reserveHome_only g s n l).start

/-! ### clearHome -/

@[simp] theorem clearHome_store (g : Settings) (s : Serial) (c : Cell) (l : Lib) : (l.clearHome g s c).store = l.store :=
  (clearHome_only g s c l).store
@[simp] theorem clearHome_drives (g : Settings) (s : Serial) (c : Cell) (l : Lib) : (l.clearHome g s c).drives = l.drives :=
  (clearHome_only g s c l).drives
@[simp] theorem clearHome_reqs (g : Settings) (s : Serial) (c : Cell) (l : Lib) : (l.clearHome g s c).reqs = l.reqs :=
  (clearHome_only g s c l).reqs
@[simp] theorem clearHome_rail (g : Settings) (s : Serial) (c : Cell) (l : Lib) : (l.clearHome g s c).rail = l.rail :=
  (clearHome_only g s c l).rail
@[simp] theorem clearHome_acct (g : Settings) (s : Serial) (c : Cell) (l : Lib) : (l.clearHome g s c).acct = l.acct :=
  (clearHome_only g s c l).acct
@[simp] theorem clearHome_att (g : Settings) (s : Serial) (c : Cell) (l : Lib) : (l.clearHome g s c).att = l.att :=
  (clearHome_only g s c l).att
@[simp] theorem clearHome_start (g : Settings) (s : Serial) (c : Cell) (l : Lib) : (l.clearHome g s c).start = l.start :=
  (clearHome_only g s c l).start

/-! ### clearMarks -/

@[simp] theorem clearMarks_store (t : Nat) (l : Lib) : (l.clearMarks t).store = l.store :=
  (clearMarks_only t l).store
@[simp] theorem clearMarks_drives (t : Nat) (l : Lib) : (l.clearMarks t).drives = l.drives :=
  (clearMarks_only t l).drives
@[simp] theorem clearMarks_reqs (t : Nat) (l : Lib) : (l.clearMarks t).reqs = l.reqs :=
  (clearMarks_only t l).reqs
@[simp] theorem clearMarks_rail (t : Nat) (l : Lib) : (l.clearMarks t).rail = l.rail :=
  (clearMarks_only t l).rail
@[simp] theorem clearMarks_acct (t : Nat) (l : Lib) : (l.clearMarks t).acct = l.acct :=
  (clearMarks_only t l).acct
@[simp] theorem clearMarks_att (t : Nat) (l : Lib) : (l.clearMarks t).att = l.att :=
  (clearMarks_only t l).att
@[simp] theorem clearMarks_start (t : Nat) (l : Lib) : (l.clearMarks t).start = l.start :=
  (clearMarks_only t l).start

/-! ### updateRemove -/

@[simp] theorem updateRemove_store (g : Settings) (l : Lib) : (l.updateRemove g).store = l.store :=
  (updateRemove_only g l).store
@[simp] theorem updateRemove_cat (g : Settings) (l : Lib) : (l.updateRemove g).cat = l.cat :=
  (updateRemove_only g l).cat
@[simp] theorem updateRemove_place (g : Settings) (l : Lib) : (l.updateRemove g).place = l.place :=
  (updateRemove_only g l).place
@[simp] theorem updateRemove_drives (g : Settings) (l : Lib) : (l.updateRemove g).drives = l.drives :=
  (updateRemove_only g l).drives
@[simp] theorem updateRemove_reqs (g : Settings) (l : Lib) : (l.updateRemove g).reqs = l.reqs :=
  (updateRemove_only g l).reqs
@[simp] theorem updateRemove_rail (g : Settings) (l : Lib) : (l.updateRemove g).rail = l.rail :=
  (updateRemove_only g l).rail
@[simp] theorem updateRemove_acct (g : Settings) (l : Lib) : (l.updateRemove g).acct = l.acct :=
  (updateRemove_only g l).acct
@[simp] theorem updateRemove_att (g : Settings) (l : Lib) : (l.updateRemove g).att = l.att :=
  (updateRemove_only g l).att
@[simp] theorem updateRemove_start (g : Settings) (l : Lib) : (l.updateRemove g).start = l.start :=
  (updateRemove_only g l).start
@[simp] theorem updateRemove_notes (g : Settings) (l : Lib) : (l.updateRemove g).notes = l.notes :=
  (updateRemove_only g l).notes

/-! ### setSlot -/

@[simp] theorem setSlot_store (g : Settings) (k : Nat) (s : Slot) (l : Lib) : (l.setSlot g k s).store = l.store :=
  (setSlot_only g k s l).store
@[simp] theorem setSlot_drives (g : Settings) (k : Nat) (s : Slot) (l : Lib) : (l.setSlot g k s).drives = l.drives :=
  (setSlot_only g k s l).drives
@[simp] theorem setSlot_reqs (g : Settings) (k : Nat) (s : Slot) (l : Lib) : (l.setSlot g k s).reqs = l.reqs :=
  (setSlot_only g k s l).reqs
@[simp] theorem setSlot_rail (g : Settings) (k : Nat) (s : Slot) (l : Lib) : (l.setSlot g k s).rail = l.rail :=
  (setSlot_only g k s l).rail
@[simp] theorem setSlot_acct (g : Settings) (k : Nat) (s : Slot) (l : Lib) : (l.setSlot g k s).acct = l.acct :=
  (setSlot_only g k s l).acct
@[simp] theorem setSlot_att (g : Settings) (k : Nat) (s : Slot) (l : Lib) : (l.setSlot g k s).att = l.att :=
  (setSlot_only g k s l).att
@[simp] theorem setSlot_start (g : Settings) (k : Nat) (s : Slot) (l : Lib) : (l.setSlot g k s).start = l.start :=
  (setSlot_only g k s l).start

/-! ### rejectSlot -/

@[simp] theorem rejectSlot_store (g : Settings) (k : Nat) (x : Option Serial) (w : Reject) (l : Lib) : (l.rejectSlot g k x w).store = l.store :=
  (rejectSlot_only g k x w l).store
@[simp] theorem rejectSlot_drives (g : Settings) (k : Nat) (x : Option Serial) (w : Reject) (l : Lib) : (l.rejectSlot g k x w).drives = l.drives :=
  (rejectSlot_only g k x w l).drives
@[simp] theorem rejectSlot_reqs (g : Settings) (k : Nat) (x : Option Serial) (w : Reject) (l : Lib) : (l.rejectSlot g k x w).reqs = l.reqs :=
  (rejectSlot_only g k x w l).reqs
@[simp] theorem rejectSlot_rail (g : Settings) (k : Nat) (x : Option Serial) (w : Reject) (l : Lib) : (l.rejectSlot g k x w).rail = l.rail :=
  (rejectSlot_only g k x w l).rail
@[simp] theorem rejectSlot_acct (g : Settings) (k : Nat) (x : Option Serial) (w : Reject) (l : Lib) : (l.rejectSlot g k x w).acct = l.acct :=
  (rejectSlot_only g k x w l).acct
@[simp] theorem rejectSlot_att (g : Settings) (k : Nat) (x : Option Serial) (w : Reject) (l : Lib) : (l.rejectSlot g k x w).att = l.att :=
  (rejectSlot_only g k x w l).att
@[simp] theorem rejectSlot_start (g : Settings) (k : Nat) (x : Option Serial) (w : Reject) (l : Lib) : (l.rejectSlot g k x w).start = l.start :=
  (rejectSlot_only g k x w l).start

/-! ### freePlaceSlot -/

@[simp] theorem freePlaceSlot_store (g : Settings) (t : Nat) (l : Lib) : (l.freePlaceSlot g t).store = l.store :=
  (freePlaceSlot_only g t l).store
@[simp] theorem freePlaceSlot_drives (g : Settings) (t : Nat) (l : Lib) : (l.freePlaceSlot g t).drives = l.drives :=
  (freePlaceSlot_only g t l).drives
@[simp] theorem freePlaceSlot_reqs (g : Settings) (t : Nat) (l : Lib) : (l.freePlaceSlot g t).reqs = l.reqs :=
  (freePlaceSlot_only g t l).reqs
@[simp] theorem freePlaceSlot_rail (g : Settings) (t : Nat) (l : Lib) : (l.freePlaceSlot g t).rail = l.rail :=
  (freePlaceSlot_only g t l).rail
@[simp] theorem freePlaceSlot_acct (g : Settings) (t : Nat) (l : Lib) : (l.freePlaceSlot g t).acct = l.acct :=
  (freePlaceSlot_only g t l).acct
@[simp] theorem freePlaceSlot_att (g : Settings) (t : Nat) (l : Lib) : (l.freePlaceSlot g t).att = l.att :=
  (freePlaceSlot_only g t l).att
@[simp] theorem freePlaceSlot_start (g : Settings) (t : Nat) (l : Lib) : (l.freePlaceSlot g t).start = l.start :=
  (freePlaceSlot_only g t l).start

/-! ### declareMissing -/

@[simp] theorem declareMissing_store (g : Settings) (s : Serial) (c : Cell) (l : Lib) : (l.declareMissing g s c).store = l.store :=
  (declareMissing_only g s c l).store
@[simp] theorem declareMissing_drives (g : Settings) (s : Serial) (c : Cell) (l : Lib) : (l.declareMissing g s c).drives = l.drives :=
  (declareMissing_only g s c l).drives
@[simp] theorem declareMissing_reqs (g : Settings) (s : Serial) (c : Cell) (l : Lib) : (l.declareMissing g s c).reqs = l.reqs :=
  (declareMissing_only g s c l).reqs
@[simp] theorem declareMissing_rail (g : Settings) (s : Serial) (c : Cell) (l : Lib) : (l.declareMissing g s c).rail = l.rail :=
  (declareMissing_only g s c l).rail
@[simp] theorem declareMissing_acct (g : Settings) (s : Serial) (c : Cell) (l : Lib) : (l.declareMissing g s c).acct = l.acct :=
  (declareMissing_only g s c l).acct
@[simp] theorem declareMissing_att (g : Settings) (s : Serial) (c : Cell) (l : Lib) : (l.declareMissing g s c).att = l.att :=
  (declareMissing_only g s c l).att
@[simp] theorem declareMissing_start (g : Settings) (s : Serial) (c : Cell) (l : Lib) : (l.declareMissing g s c).start = l.start :=
  (declareMissing_only g s c l).start

/-! ## What is found after an update -/

theorem vol?_updVol_other (s x : Serial) (f : Volume → Volume) (l : Lib) (hx : x ≠ s)
    (hf : ∀ v, (f v).serial = v.serial) : (l.updVol s f).vol? x = l.vol? x := by
  unfold vol? updVol
  dsimp only
  rw [List.find?_map_keep]
  · cases h : l.cat.vols.find? (fun v => decide (v.serial = x)) with
    | none => rfl
    | some v =>
      have : v.serial = x := by simpa using List.find?_some h
      simp [this, hx]
  · intro v; by_cases h : v.serial = s <;> simp [h, hf]

theorem req?_updReq_other (t x : Nat) (f : Request → Request) (l : Lib) (hx : x ≠ t)
    (hf : ∀ r, (f r).tag = r.tag) : (l.updReq t f).req? x = l.req? x := by
  unfold req? updReq
  dsimp only
  rw [List.find?_map_keep]
  · cases h : l.reqs.live.find? (fun v => decide (v.tag = x)) with
    | none => rfl
    | some v =>
      have : v.tag = x := by simpa using List.find?_some h
      simp [this, hx]
  · intro v; by_cases h : v.tag = t <;> simp [h, hf]

theorem account?_updAcct_other (n x : Nat) (f : Account → Account) (l : Lib) (hx : x ≠ n)
    (hf : ∀ a, (f a).number = a.number) : (l.updAcct n f).account? x = l.account? x := by
  unfold account? updAcct
  dsimp only
  rw [List.find?_map_keep]
  · cases h : l.acct.accounts.find? (fun v => decide (v.number = x)) with
    | none => rfl
    | some v =>
      have : v.number = x := by simpa using List.find?_some h
      simp [this, hx]
  · intro v; by_cases h : v.number = n <;> simp [h, hf]

@[simp] theorem judgeLow_vols (g : Settings) (l : Lib) : (l.judgeLow g).cat.vols = l.cat.vols := by
  unfold judgeLow; split
  · split <;> rfl
  · rfl

@[simp] theorem judgeLow_scratch (g : Settings) (l : Lib) : (l.judgeLow g).cat.scratch = l.cat.scratch := by
  unfold judgeLow; split
  · split <;> rfl
  · rfl

theorem judgeLow_low (g : Settings) (l : Lib) :
    (l.judgeLow g).cat.low = decide (l.cat.scratch.length < g.timers.threshold) := by
  unfold judgeLow; split
  · next h => split <;> simp_all [raisePlain]
  · next h => simp [h]

@[simp] theorem evalLow_vols (g : Settings) (l : Lib) : (l.evalLow g).cat.vols = l.cat.vols := by
  unfold evalLow; dsimp only; split <;> simp

@[simp] theorem evalLow_scratch (g : Settings) (l : Lib) : (l.evalLow g).cat.scratch = l.cat.scratch := by
  unfold evalLow; dsimp only; split <;> simp

theorem evalLow_low (g : Settings) (l : Lib) :
    (l.evalLow g).cat.low = decide (l.cat.scratch.length < g.timers.threshold) := by
  unfold evalLow; dsimp only; split <;> simp [judgeLow_low]

@[simp] theorem syncScratch_vols (g : Settings) (s : Serial) (l : Lib) :
    (l.syncScratch g s).cat.vols = l.cat.vols := by
  unfold syncScratch; dsimp only; split <;> simp

@[simp] theorem syncScratch_scratch (g : Settings) (s : Serial) (l : Lib) :
    (l.syncScratch g s).cat.scratch = l.scratchAfter s := by
  unfold syncScratch; dsimp only; split <;> simp

@[simp] theorem changeVol_vols (g : Settings) (s : Serial) (f : Volume → Volume) (l : Lib) :
    (l.changeVol g s f).cat.vols = (l.updVol s f).cat.vols := by
  unfold changeVol; dsimp only; split <;> simp

@[simp] theorem changeVol_scratch (g : Settings) (s : Serial) (f : Volume → Volume) (l : Lib) :
    (l.changeVol g s f).cat.scratch = (l.updVol s f).scratchAfter s := by
  unfold changeVol; dsimp only; split <;> simp

theorem vol?_changeVol_self (g : Settings) (s : Serial) (f : Volume → Volume) (l : Lib)
    (hf : ∀ v, (f v).serial = v.serial) : (l.changeVol g s f).vol? s = (l.vol? s).map f := by
  rw [← vol?_updVol_self s f l hf]; unfold vol?; rw [changeVol_vols]

theorem vol?_changeVol_other (g : Settings) (s x : Serial) (f : Volume → Volume) (l : Lib) (hx : x ≠ s)
    (hf : ∀ v, (f v).serial = v.serial) : (l.changeVol g s f).vol? x = l.vol? x := by
  rw [← vol?_updVol_other s x f l hx hf]; unfold vol?; rw [changeVol_vols]

@[simp] theorem setCell_cat (n : Nat) (c : Cell) (l : Lib) : (l.setCell n c).cat = l.cat := by
  unfold setCell; dsimp only; split <;> rfl

@[simp] theorem setCell_prompts (n : Nat) (c : Cell) (l : Lib) : (l.setCell n c).prompts = l.prompts := by
  unfold setCell; dsimp only; split <;> rfl

@[simp] theorem setCell_place (n : Nat) (c : Cell) (l : Lib) :
    (l.setCell n c).place = { l.place with cells := l.place.cells.set n c } := by
  unfold setCell; dsimp only; split <;> rfl

theorem cell_setCell_self (n : Nat) (c : Cell) (l : Lib) (h : n < l.place.cells.length) :
    (l.setCell n c).cell n = c := by
  simp [cell, List.getD_eq_getElem?_getD, h]

theorem cell_setCell_other (n m : Nat) (c : Cell) (l : Lib) (h : m ≠ n) : (l.setCell n c).cell m = l.cell m := by
  simp [cell, List.getD_eq_getElem?_getD, Ne.symm h]

@[simp] theorem changeSlot_place (g : Settings) (k : Nat) (s : Slot) (l : Lib) :
    (l.changeSlot g k s).place = { l.place with slots := l.place.slots.set k s } := by
  unfold changeSlot; dsimp only; split
  · simp only [withdrawNotice_place]; split <;> rfl
  · split <;> rfl

@[simp] theorem changeSlot_cat (g : Settings) (k : Nat) (s : Slot) (l : Lib) :
    (l.changeSlot g k s).cat = l.cat := by
  unfold changeSlot; dsimp only; split
  · simp only [withdrawNotice_cat]; split <;> rfl
  · split <;> rfl

@[simp] theorem setSlot_place (g : Settings) (k : Nat) (s : Slot) (l : Lib) :
    (l.setSlot g k s).place = { l.place with slots := l.place.slots.set k s } := by
  unfold setSlot; simp

@[simp] theorem setSlot_cat (g : Settings) (k : Nat) (s : Slot) (l : Lib) : (l.setSlot g k s).cat = l.cat := by
  unfold setSlot; simp

/-- A rejected slot has its label and its reason; the other places stand (R37, R41). -/
@[simp] theorem rejectSlot_place (g : Settings) (k : Nat) (x : Option Serial) (w : Reject) (l : Lib) :
    (l.rejectSlot g k x w).place = { l.place with slots := l.place.slots.set k (.rejected x w) } := by
  unfold rejectSlot postRejected; simp

theorem slot_setSlot_self (g : Settings) (k : Nat) (s : Slot) (l : Lib) (h : k < l.place.slots.length) :
    (l.setSlot g k s).slot k = s := by
  simp [slot, List.getD_eq_getElem?_getD, h]

theorem slot_setSlot_other (g : Settings) (k m : Nat) (s : Slot) (l : Lib) (h : m ≠ k) :
    (l.setSlot g k s).slot m = l.slot m := by
  simp [slot, List.getD_eq_getElem?_getD, Ne.symm h]

@[simp] theorem freePlaceSlot_cat (g : Settings) (t : Nat) (l : Lib) : (l.freePlaceSlot g t).cat = l.cat := by
  unfold freePlaceSlot; split <;> simp

@[simp] theorem freePlaceSlot_cells (g : Settings) (t : Nat) (l : Lib) :
    (l.freePlaceSlot g t).place.cells = l.place.cells := by
  unfold freePlaceSlot; split <;> simp

theorem clearMark_fold (t : Nat) (ns : List Nat) (l : Lib) :
    (ns.foldl (fun l n => if l.cell n = .empty (some t) then l.setCell n (.empty none) else l) l).cat = l.cat
    ∧ ∀ m c, l.cell m = c → c ≠ .empty (some t) →
      (ns.foldl (fun l n => if l.cell n = .empty (some t) then l.setCell n (.empty none) else l) l).cell m = c := by
  induction ns generalizing l with
  | nil => exact ⟨rfl, fun m c h _ => h⟩
  | cons n ns ih =>
    rw [List.foldl_cons]
    refine ⟨?_, ?_⟩
    · rw [(ih _).1]; split <;> simp
    · intro m c hm hc
      apply (ih _).2 m c _ hc
      split
      · next h =>
        rw [cell_setCell_other, hm]
        rintro rfl; rw [hm] at h; exact hc h
      · exact hm

@[simp] theorem clearMarks_cat (t : Nat) (l : Lib) : (l.clearMarks t).cat = l.cat := (clearMark_fold t _ l).1

/-- A cell without the request's mark is as it was. -/
theorem cell_clearMarks (t m : Nat) (l : Lib) (h : l.cell m ≠ .empty (some t)) : (l.clearMarks t).cell m = l.cell m :=
  (clearMark_fold t _ l).2 m _ rfl h

/-- A cleared home is none, and the cell that named it has the contents given. -/
theorem vol?_clearHome_self (g : Settings) (s : Serial) (c : Cell) (l : Lib) :
    (l.clearHome g s c).vol? s = (l.vol? s).map fun v => { v with homeCell := none } := by
  unfold clearHome
  cases h : l.vol? s with
  | none => simp [h]
  | some v =>
    cases hh : v.homeCell with
    | none => simp [hh, h]; rw [← hh]
    | some n =>
      simp only [Option.bind_some, hh]
      rw [vol?_changeVol_self _ _ _ _ (by simp)]
      have h' : (l.setCell n c).vol? s = some v := by rw [← h]; simp [vol?]
      rw [h']

end Lib

/-! ## The error figure of UNLOADED -/

/-- An error figure changes the catalogue's records alone. -/
theorem Lib.addErrors_only (d errors : Nat) (l : Lib) :
    l.addErrors d errors = { l with cat := { l.cat with vols := (l.addErrors d errors).cat.vols } } := by
  unfold Lib.addErrors; split <;> rfl

/-- No volume is placed at the drive: the figure is added to no record (R2, R56). -/
theorem Lib.addErrors_none (d errors : Nat) (l : Lib) (h : l.reelVolume? d = none) : l.addErrors d errors = l := by
  unfold Lib.addErrors; rw [h]

/-- The volume placed at the drive takes the figure, and no other record does (R2, R56). -/
theorem Lib.addErrors_vol? (d errors : Nat) (l : Lib) (s : Serial) (v : Volume) (h : l.reelVolume? d = some s)
    (hv : l.vol? s = some v) :
    (l.addErrors d errors).vol? s = some { v with errors := satAdd max8 v.errors errors }
      ∧ ∀ x, x ≠ s → (l.addErrors d errors).vol? x = l.vol? x := by
  unfold Lib.addErrors; rw [h]; dsimp only
  exact ⟨by rw [Lib.vol?_updVol_self, hv] <;> simp,
    fun x hx => Lib.vol?_updVol_other _ _ _ _ hx fun _ => rfl⟩

/-- The reel is unrecorded, or the records place no volume at the drive. -/
theorem Lib.reelVolume?_none (d : Nat) (l : Lib)
    (h : (l.drive d).reel = .unrecorded
      ∨ ((l.drive d).reel = .none ∧ ∀ v ∈ l.cat.vols, v.state ≠ .onDrive d)) :
    l.reelVolume? d = none := by
  unfold Lib.reelVolume?
  rcases h with h | ⟨h, hv⟩
  · rw [h]
  · rw [h]; simpa [Lib.volOnDrive?] using hv

/-- The reel field names a volume, or says none where the records place one. -/
theorem Lib.reelVolume?_some (d : Nat) (l : Lib) (s : Serial) (v : Volume) (hv : l.vol? s = some v)
    (h : (l.drive d).reel = .recorded s
      ∨ ((l.drive d).reel = .none ∧ l.volOnDrive? d = some v)) :
    l.reelVolume? d = some s := by
  have hs : v.serial = s := by simpa using List.find?_some (show l.cat.vols.find? _ = some v from hv)
  unfold Lib.reelVolume?
  rcases h with h | ⟨h, ho⟩
  · rw [h]
  · rw [h]; simp [ho, hs]

/-- The drives stay as they are. -/
@[simp] theorem Lib.addErrors_drive (d errors e : Nat) (l : Lib) : (l.addErrors d errors).drive e = l.drive e := by
  rw [Lib.addErrors_only]; rfl

/-- UNLOADED in a state that discards it adds the error figure alone (R56, log 34). -/
theorem Lib.unloadedReport_discarded (g : Settings) (d errors : Nat) (l : Lib)
    (h : (∃ c, (l.drive d).state = .reserved c) ∨ (l.drive d).state = .awaitPick
        ∨ ((l.drive d).state = .faulted ∧ (l.drive d).reel = .none)) :
    l.unloadedReport g d errors = l.addErrors d errors := by
  unfold Lib.unloadedReport
  rcases h with ⟨c, h⟩ | h | ⟨h, hr⟩ <;> simp [h]
  simp [Lib.hasReel, hr]

/-- UNLOADED in IDLE or OFFLINE adds the error figure and asks what the drive holds (R56). -/
theorem Lib.unloadedReport_asks (g : Settings) (d errors : Nat) (l : Lib)
    (h : (l.drive d).state = .idle ∨ (l.drive d).state = .offline) :
    l.unloadedReport g d errors = (l.addErrors d errors).askHolding d := by
  unfold Lib.unloadedReport
  rcases h with h | h <;> simp [h]

/-! ## The deadlines at a load of the clock (R190) -/

namespace Lib

/-- The posting of a number is the same one after every prompt of the slots has been changed in a way that keeps
its number and whether it is POSTED. -/
theorem posted?_map (f : Prompt → Prompt) (hp : ∀ p, (f p).isPosted = p.isPosted)
    (hn : ∀ p, (f p).posting = p.posting) (l : Lib) (n : Nat) :
    ({ l with prompts := { l.prompts with slots := l.prompts.slots.map (Option.map f) } } : Lib).posted? n
      = (l.posted? n).map fun x => (x.1, f x.2) := by
  have h : ({ l with prompts := { l.prompts with slots := l.prompts.slots.map (Option.map f) } } : Lib).numbered
      = l.numbered.map fun x => (x.1, f x.2) := by
    simp only [numbered, List.map_filterMap]
    congr 1
    funext k
    simp only [List.getD_eq_getElem?_getD, List.getElem?_map]
    rcases l.prompts.slots[k]? with _ | _ | p <;> rfl
  simp only [posted?, h, List.find?_map]
  congr 2
  funext x
  simp [hp, hn]

/-- A load of the clock changes the prompt unit and what is sent, and nothing else. -/
theorem moveDeadlines_only (old new : Clock) (l : Lib) : PromptsOnly l (l.moveDeadlines old new) := by
  unfold moveDeadlines; dsimp only
  (repeat' split) <;> first
    | rfl
    | exact PromptsOnly.trans (m := { l with prompts := _ }) rfl (refresh_only _ _ _)

/-- Where the presented posting keeps its deadline, the deadlines of the slots move and nothing is sent. -/
theorem moveDeadlines_quiet (old new : Clock) (l : Lib)
    (h : ∀ n k p, l.prompts.presented = some n → l.posted? n = some (k, p) → p.moveDeadline old new = p) :
    l.moveDeadlines old new = { l with prompts :=
      { l.prompts with slots := l.prompts.slots.map (Option.map (Prompt.moveDeadline old new)) } } := by
  unfold moveDeadlines; dsimp only
  cases hn : l.prompts.presented with
  | none => rfl
  | some n =>
    cases hp : l.posted? n with
    | none => simp [hp]
    | some x => simp [hp, h n x.1 x.2 hn hp]

/-- Where the presented posting's deadline changes, the deadlines of the slots move and the posting is sent again
(R130). -/
theorem moveDeadlines_shown (old new : Clock) (l : Lib) (n k : Nat) (p : Prompt)
    (hn : l.prompts.presented = some n) (hp : l.posted? n = some (k, p)) (hc : p.moveDeadline old new ≠ p) :
    let q := { p.moveDeadline old new with announced := true }
    let shown : Present := { prompt := q, alert := !p.announced && p.mode ≠ .silent }
    l.moveDeadlines old new = { l with
      prompts := { l.prompts with
        slots := (l.prompts.slots.map (Option.map (Prompt.moveDeadline old new))).set k (some q)
        lastSent := some shown }
      out := l.out ++ [.present shown] } := by
  have hnum : p.posting = n := by
    have := List.find?_some hp
    simpa using (Bool.and_eq_true_iff.mp this).2
  have hm := posted?_map (Prompt.moveDeadline old new) (fun _ => rfl) (fun _ => rfl) l n
  have hs : (l.prompts.presented.bind l.posted?).map Prod.snd = some p := by rw [hn]; simp [hp]
  intro q shown
  unfold moveDeadlines refresh
  dsimp only
  rw [hs]
  dsimp only
  rw [if_neg hc, hnum, if_pos hn, hm, hp]
  dsimp only [Option.map_some]
  simp [display, hn, hnum, Prompt.moveDeadline, setPrompt, send, q, shown]

end Lib

end Sys2Proof.Machine
end

