-- ==== Sys2Proof/Laws/Requests.lean ====
section
/-! SUPPORT. What the shared operations of the request table do: the request they change, the volume they hold or
release, and all that they leave alone. -/

namespace Sys2Proof.Machine.Lib

/-! ## Drives -/

theorem releaseDrive_only (d : Nat) (l : Lib) :
    l.releaseDrive d = { l with drives := (l.releaseDrive d).drives, notes := (l.releaseDrive d).notes } := by
  unfold releaseDrive driveFreed; split
  · rfl
  · split <;> rfl

theorem leaveDrives_only (t : Nat) (l : Lib) :
    l.leaveDrives t = { l with drives := (l.leaveDrives t).drives, notes := (l.leaveDrives t).notes } := by
  unfold leaveDrives
  generalize l.servingDrives t = ds
  induction ds generalizing l with
  | nil => rfl
  | cons d ds ih =>
    rw [List.foldl_cons, ih]; split
    · rw [releaseDrive_only]
    · rfl

@[simp] theorem leaveDrives_cat (t : Nat) (l : Lib) : (l.leaveDrives t).cat = l.cat := by rw [leaveDrives_only]
@[simp] theorem leaveDrives_place (t : Nat) (l : Lib) : (l.leaveDrives t).place = l.place := by rw [leaveDrives_only]
@[simp] theorem leaveDrives_reqs (t : Nat) (l : Lib) : (l.leaveDrives t).reqs = l.reqs := by rw [leaveDrives_only]
@[simp] theorem leaveDrives_rail (t : Nat) (l : Lib) : (l.leaveDrives t).rail = l.rail := by rw [leaveDrives_only]
@[simp] theorem leaveDrives_acct (t : Nat) (l : Lib) : (l.leaveDrives t).acct = l.acct := by rw [leaveDrives_only]
@[simp] theorem leaveDrives_att (t : Nat) (l : Lib) : (l.leaveDrives t).att = l.att := by rw [leaveDrives_only]
@[simp] theorem leaveDrives_start (t : Nat) (l : Lib) : (l.leaveDrives t).start = l.start := by rw [leaveDrives_only]

/-! ## States -/

/-- What `setReqState` does: the request has the state, and the prompts, what is sent and the notes may change. -/
theorem setReqState_only (g : Settings) (t : Nat) (st : ReqState) (l : Lib) :
    l.setReqState g t st = { l with
      reqs := (l.setReqState g t st).reqs, prompts := (l.setReqState g t st).prompts
      out := (l.setReqState g t st).out, notes := (l.setReqState g t st).notes } := by
  unfold setReqState
  cases l.req? t with
  | none => rfl
  | some r =>
    dsimp only
    have h : ∀ m : Lib, PromptsOnly (l.updReq t fun q =>
        { q with state := st, stallLeft := if st.inList then some g.timers.stall else none
                 qseq := if st.keepsQueue then q.qseq else none }) m →
        m = { l with reqs := m.reqs, prompts := m.prompts, out := m.out, notes := m.notes } := by
      intro m hm; rw [hm]; rfl
    have h' : ∀ m : Lib, m = { l with reqs := m.reqs, prompts := m.prompts, out := m.out, notes := m.notes } →
        m.wake = { l with reqs := m.wake.reqs, prompts := m.wake.prompts, out := m.wake.out, notes := m.wake.notes } := by
      intro m hm; rw [hm]; rfl
    split
    · split
      · exact h' _ (h _ (withdrawNotice_only _ _ _ _))
      · exact h' _ (h _ (.refl _))
    · split
      · exact h _ (withdrawNotice_only _ _ _ _)
      · exact h _ (.refl _)

@[simp] theorem setReqState_cat (g : Settings) (t : Nat) (st : ReqState) (l : Lib) :
    (l.setReqState g t st).cat = l.cat := by rw [setReqState_only]
@[simp] theorem setReqState_place (g : Settings) (t : Nat) (st : ReqState) (l : Lib) :
    (l.setReqState g t st).place = l.place := by rw [setReqState_only]
@[simp] theorem setReqState_drives (g : Settings) (t : Nat) (st : ReqState) (l : Lib) :
    (l.setReqState g t st).drives = l.drives := by rw [setReqState_only]
@[simp] theorem setReqState_rail (g : Settings) (t : Nat) (st : ReqState) (l : Lib) :
    (l.setReqState g t st).rail = l.rail := by rw [setReqState_only]
@[simp] theorem setReqState_acct (g : Settings) (t : Nat) (st : ReqState) (l : Lib) :
    (l.setReqState g t st).acct = l.acct := by rw [setReqState_only]
@[simp] theorem setReqState_att (g : Settings) (t : Nat) (st : ReqState) (l : Lib) :
    (l.setReqState g t st).att = l.att := by rw [setReqState_only]
@[simp] theorem setReqState_start (g : Settings) (t : Nat) (st : ReqState) (l : Lib) :
    (l.setReqState g t st).start = l.start := by rw [setReqState_only]

theorem setReqState_live (g : Settings) (t : Nat) (st : ReqState) (l : Lib) (r : Request) (h : l.req? t = some r) :
    (l.setReqState g t st).reqs = (l.updReq t fun q =>
      { q with state := st, stallLeft := if st.inList then some g.timers.stall else none
               qseq := if st.keepsQueue then q.qseq else none }).reqs := by
  unfold setReqState; rw [h]; dsimp only
  split <;> (simp; try split) <;> simp

/-- The request whose state is set. -/
theorem req?_setReqState_self (g : Settings) (t : Nat) (st : ReqState) (l : Lib) :
    (l.setReqState g t st).req? t = (l.req? t).map fun q =>
      { q with state := st, stallLeft := if st.inList then some g.timers.stall else none
               qseq := if st.keepsQueue then q.qseq else none } := by
  cases h : l.req? t with
  | none => simp [setReqState, h]
  | some r =>
    have e := req?_updReq_self t (fun q =>
      { q with state := st, stallLeft := if st.inList then some g.timers.stall else none
               qseq := if st.keepsQueue then q.qseq else none }) l (by intro r; rfl)
    rw [h] at e
    unfold req? at e ⊢
    rw [setReqState_live g t st l r h, e]

theorem req?_setReqState_other (g : Settings) (t x : Nat) (st : ReqState) (l : Lib) (hx : x ≠ t) :
    (l.setReqState g t st).req? x = l.req? x := by
  cases h : l.req? t with
  | none => simp [setReqState, h]
  | some r =>
    have e := req?_updReq_other t x (fun q =>
      { q with state := st, stallLeft := if st.inList then some g.timers.stall else none
               qseq := if st.keepsQueue then q.qseq else none }) l hx (by intro r; rfl)
    rw [← e]
    unfold req?
    rw [setReqState_live g t st l r h]

@[simp] theorem fixCode_cat (t : Nat) (c : Code) (l : Lib) : (l.fixCode t c).cat = l.cat := rfl
@[simp] theorem fixCode_place (t : Nat) (c : Code) (l : Lib) : (l.fixCode t c).place = l.place := rfl
@[simp] theorem fixCode_drives (t : Nat) (c : Code) (l : Lib) : (l.fixCode t c).drives = l.drives := rfl
@[simp] theorem fixCode_rail (t : Nat) (c : Code) (l : Lib) : (l.fixCode t c).rail = l.rail := rfl
@[simp] theorem fixCode_acct (t : Nat) (c : Code) (l : Lib) : (l.fixCode t c).acct = l.acct := rfl
@[simp] theorem fixCode_att (t : Nat) (c : Code) (l : Lib) : (l.fixCode t c).att = l.att := rfl
@[simp] theorem fixCode_start (t : Nat) (c : Code) (l : Lib) : (l.fixCode t c).start = l.start := rfl

theorem req?_fixCode_self (t : Nat) (c : Code) (l : Lib) :
    (l.fixCode t c).req? t = (l.req? t).map fun r => { r with code := some (r.code.getD c) } :=
  req?_updReq_self t _ l (by intro r; rfl)

/-! ## Holds and accruals -/

theorem releaseHold_only (g : Settings) (t : Nat) (l : Lib) : CatOnly l (l.releaseHold g t) := by
  unfold releaseHold; split
  · split
    · exact changeVol_only _ _ _ _
    · rfl
  · rfl

@[simp] theorem releaseHold_place (g : Settings) (t : Nat) (l : Lib) : (l.releaseHold g t).place = l.place :=
  (releaseHold_only g t l).place
@[simp] theorem releaseHold_drives (g : Settings) (t : Nat) (l : Lib) : (l.releaseHold g t).drives = l.drives :=
  (releaseHold_only g t l).drives
@[simp] theorem releaseHold_reqs (g : Settings) (t : Nat) (l : Lib) : (l.releaseHold g t).reqs = l.reqs :=
  (releaseHold_only g t l).reqs
@[simp] theorem releaseHold_rail (g : Settings) (t : Nat) (l : Lib) : (l.releaseHold g t).rail = l.rail :=
  (releaseHold_only g t l).rail
@[simp] theorem releaseHold_acct (g : Settings) (t : Nat) (l : Lib) : (l.releaseHold g t).acct = l.acct :=
  (releaseHold_only g t l).acct
@[simp] theorem releaseHold_att (g : Settings) (t : Nat) (l : Lib) : (l.releaseHold g t).att = l.att :=
  (releaseHold_only g t l).att
@[simp] theorem releaseHold_start (g : Settings) (t : Nat) (l : Lib) : (l.releaseHold g t).start = l.start :=
  (releaseHold_only g t l).start

/-- A release of a hold changes a volume's holder at most. -/
theorem vol?_releaseHold (g : Settings) (t : Nat) (s : Serial) (l : Lib) :
    ∃ f : Option Nat → Option Nat,
      (l.releaseHold g t).vol? s = (l.vol? s).map fun v => { v with holder := f v.holder } := by
  unfold releaseHold; split
  · next x hx =>
    split
    · by_cases h : s = x
      · exact ⟨fun _ => none, by rw [h, vol?_changeVol_self _ _ _ _ (by intro v; rfl)]⟩
      · exact ⟨id, by rw [vol?_changeVol_other _ _ _ _ _ h (by intro v; rfl)]; simp⟩
    · exact ⟨id, by simp⟩
  · exact ⟨id, by simp⟩

@[simp] theorem accrue_store (n : Option Nat) (f : Account → Account) (l : Lib) : (l.accrue n f).store = l.store := by
  unfold accrue; split <;> rfl
@[simp] theorem accrue_cat (n : Option Nat) (f : Account → Account) (l : Lib) : (l.accrue n f).cat = l.cat := by
  unfold accrue; split <;> rfl
@[simp] theorem accrue_place (n : Option Nat) (f : Account → Account) (l : Lib) : (l.accrue n f).place = l.place := by
  unfold accrue; split <;> rfl
@[simp] theorem accrue_drives (n : Option Nat) (f : Account → Account) (l : Lib) : (l.accrue n f).drives = l.drives := by
  unfold accrue; split <;> rfl
@[simp] theorem accrue_reqs (n : Option Nat) (f : Account → Account) (l : Lib) : (l.accrue n f).reqs = l.reqs := by
  unfold accrue; split <;> rfl
@[simp] theorem accrue_rail (n : Option Nat) (f : Account → Account) (l : Lib) : (l.accrue n f).rail = l.rail := by
  unfold accrue; split <;> rfl
@[simp] theorem accrue_att (n : Option Nat) (f : Account → Account) (l : Lib) : (l.accrue n f).att = l.att := by
  unfold accrue; split <;> rfl
@[simp] theorem accrue_start (n : Option Nat) (f : Account → Account) (l : Lib) : (l.accrue n f).start = l.start := by
  unfold accrue; split <;> rfl
@[simp] theorem accrue_prompts (n : Option Nat) (f : Account → Account) (l : Lib) :
    (l.accrue n f).prompts = l.prompts := by unfold accrue; split <;> rfl
@[simp] theorem accrue_out (n : Option Nat) (f : Account → Account) (l : Lib) : (l.accrue n f).out = l.out := by
  unfold accrue; split <;> rfl
@[simp] theorem accrue_notes (n : Option Nat) (f : Account → Account) (l : Lib) : (l.accrue n f).notes = l.notes := by
  unfold accrue; split <;> rfl

/-! ## Completion -/

@[simp] theorem complete_rail (g : Settings) (t : Nat) (c : Code) (l : Lib) : (l.complete g t c).rail = l.rail := by
  unfold complete; split
  · rfl
  · split
    · rfl
    · dsimp only; split <;> split <;> simp [freeEntry]

@[simp] theorem complete_start (g : Settings) (t : Nat) (c : Code) (l : Lib) : (l.complete g t c).start = l.start := by
  unfold complete; split
  · rfl
  · split
    · rfl
    · dsimp only; split <;> split <;> simp [freeEntry]

/-- What the completion of a request of the host leaves of it: DONE, with the first code fixed. -/
theorem req?_complete_self (g : Settings) (t : Nat) (c : Code) (l : Lib) (r : Request) (h : l.req? t = some r)
    (hd : r.state ≠ .done) (ho : r.origin = .link) :
    (l.complete g t c).req? t = some { r with
      code := some (r.code.getD c), state := .done, stallLeft := none, qseq := none } := by
  have key : ∀ m : Lib, m.reqs = ((((((l.leaveDrives t).freePlaceSlot g t).clearMarks t).clearRequestPrompt g t).fixCode t
      c).setReqState g t .done).reqs → m.req? t = some { r with
        code := some (r.code.getD c), state := .done, stallLeft := none, qseq := none } := by
    intro m hm
    have e : m.req? t = ((((((l.leaveDrives t).freePlaceSlot g t).clearMarks t).clearRequestPrompt g t).fixCode t
        c).setReqState g t .done).req? t := by unfold req?; rw [hm]
    rw [e, req?_setReqState_self, req?_fixCode_self]
    have e' : ((((l.leaveDrives t).freePlaceSlot g t).clearMarks t).clearRequestPrompt g t).req? t = l.req? t := by
      unfold req?; simp
    rw [e', h]; rfl
  unfold complete; rw [h]; dsimp only; rw [if_neg hd]
  split
  · next x hx =>
    refine key _ ?_
    split <;> simp
  · next x hx => rw [ho] at hx; cases hx

/-- The completion of a request sets REQUEST-DONE (R171). -/
theorem complete_cause (g : Settings) (t : Nat) (c : Code) (l : Lib) (r : Request) (h : l.req? t = some r)
    (hd : r.state ≠ .done) (ho : r.origin = .link) : (l.complete g t c).att.causes.getLsbD 0 = true := by
  unfold complete; rw [h]; dsimp only; rw [if_neg hd]
  split
  · simp [setCause, causeRequestDone]
  · next x hx => rw [ho] at hx; cases hx

/-- A completion changes a volume's holder at most. -/
theorem vol?_complete (g : Settings) (t : Nat) (c : Code) (s : Serial) (l : Lib) :
    ∃ f : Option Nat → Option Nat,
      (l.complete g t c).vol? s = (l.vol? s).map fun v => { v with holder := f v.holder } := by
  have key : ∀ m n : Lib, n.cat = l.cat → m.cat = (n.releaseHold g t).cat →
      ∃ f : Option Nat → Option Nat, m.vol? s = (l.vol? s).map fun v => { v with holder := f v.holder } := by
    intro m n hn hm
    obtain ⟨f, hf⟩ := vol?_releaseHold g t s n
    refine ⟨f, ?_⟩
    have e1 : m.vol? s = (n.releaseHold g t).vol? s := by unfold vol?; rw [hm]
    have e2 : n.vol? s = l.vol? s := by unfold vol?; rw [hn]
    rw [e1, hf, e2]
  have same : ∃ f : Option Nat → Option Nat, l.vol? s = (l.vol? s).map fun v => { v with holder := f v.holder } :=
    ⟨id, by simp⟩
  unfold complete; split
  · exact same
  · split
    · exact same
    · next r _ _ =>
      dsimp only
      generalize hm : (if r.code.getD c = .operatorRefused then _ else _) = m
      have hc : m.cat = l.cat := by rw [← hm]; split <;> simp
      split
      · exact key _ m hc rfl
      · exact key _ m hc rfl

/-- A completion leaves a cell alone that has not the request's mark. -/
theorem cell_complete (g : Settings) (t m : Nat) (c : Code) (l : Lib) (h : l.cell m ≠ .empty (some t)) :
    (l.complete g t c).cell m = l.cell m := by
  have key : ∀ n : Lib, n.place = ((((l.leaveDrives t).freePlaceSlot g t).clearMarks t)).place →
      n.cell m = l.cell m := by
    intro n hn
    have e0 : ((l.leaveDrives t).freePlaceSlot g t).cell m = l.cell m := by unfold cell; simp
    have e : n.cell m = (((l.leaveDrives t).freePlaceSlot g t).clearMarks t).cell m := by unfold cell; rw [hn]
    rw [e, cell_clearMarks _ _ _ (by rw [e0]; exact h), e0]
  unfold complete; split
  · rfl
  · split
    · rfl
    · next r _ _ =>
      dsimp only
      generalize hm : (if r.code.getD c = .operatorRefused then _ else _) = n
      have hc : n.place = ((((l.leaveDrives t).freePlaceSlot g t).clearMarks t)).place := by
        rw [← hm]; split <;> simp
      split <;> exact key _ (by simp [freeEntry, hc])

/-! ## A volume that is lost -/

/-- A volume declared MISSING is so, and has no home (R4). -/
theorem vol?_declareMissing_self (g : Settings) (s : Serial) (c : Cell) (l : Lib) (v : Volume)
    (h : l.vol? s = some v) (hm : v.state ≠ .missing) :
    (l.declareMissing g s c).vol? s = some { v with state := .missing, homeCell := none } := by
  unfold declareMissing; rw [h]; dsimp only; rw [if_neg hm]
  have e : ∀ m : Lib, m.cat = ((l.clearHome g s c).moveVol g s .missing).cat →
      m.vol? s = some { v with state := .missing, homeCell := none } := by
    intro m hm
    have : m.vol? s = ((l.clearHome g s c).moveVol g s .missing).vol? s := by unfold vol?; rw [hm]
    rw [this]; unfold moveVol
    rw [vol?_changeVol_self _ _ _ _ (by intro v; rfl), vol?_clearHome_self, h]; rfl
  apply e; simp [raiseMissing]

/-- The cell that named a volume declared MISSING takes the contents given (R4). -/
theorem cell_declareMissing_home (g : Settings) (s : Serial) (c : Cell) (l : Lib) (v : Volume) (n : Nat)
    (h : l.vol? s = some v) (hm : v.state ≠ .missing) (hn : v.homeCell = some n) (hl : n < l.place.cells.length) :
    (l.declareMissing g s c).cell n = c := by
  unfold declareMissing; rw [h]; dsimp only; rw [if_neg hm]
  have e : ∀ m : Lib, m.place = (l.clearHome g s c).place → m.cell n = c := by
    intro m hm
    have : m.cell n = (l.clearHome g s c).cell n := by unfold cell; rw [hm]
    rw [this]; unfold clearHome; rw [h]; simp only [Option.bind_some, hn]
    refine Eq.trans ?_ (cell_setCell_self n c l hl)
    unfold cell; simp
  apply e; simp [raiseMissing, moveVol]

end Sys2Proof.Machine.Lib
end

