-- ==== Sys2Proof/Laws/Audits.lean ====
section
/-! SUPPORT. The tags of internal requests, and the audits of start-up: which are made, which wait for an entry, and
the runs of columns they stand for (R65, R184). -/

namespace Sys2Proof.Machine

/-! ## New tags -/

/-- The rotation of the internal tags, `i` numbers on. -/
theorem nextInternal_iterate (n i : Nat) (h : i ≤ 49) : nextInternal^[i] n =
    if 65535 < n then (if i = 0 then n else 32767 + i) else if n + i ≤ 65535 then n + i else n + i - 32768 := by
  induction i with
  | zero => simp only [Function.iterate_zero, id]; split_ifs <;> omega
  | succ i ih =>
    have hv := ih (by omega)
    clear ih
    rw [Function.iterate_succ_apply']
    generalize nextInternal^[i] n = v at hv
    unfold nextInternal
    split_ifs at hv ⊢ <;> first | omega | contradiction

theorem nextInternal_injOn (n i j : Nat) (hi : i < 49) (hj : j < 49)
    (h : nextInternal^[i] n = nextInternal^[j] n) : i = j := by
  rw [nextInternal_iterate n i (by omega), nextInternal_iterate n j (by omega)] at h
  split_ifs at h <;> omega

/-- A search for a tag that ends on one in use has met only tags in use. -/
theorem pickTag_used (used : List Nat) (fuel n : Nat) (h : pickTag used fuel n ∈ used) :
    ∀ i, i < fuel → nextInternal^[i] n ∈ used := by
  induction fuel generalizing n with
  | zero => intro i hi; omega
  | succ fuel ih =>
    unfold pickTag at h
    split at h
    · rename_i hc
      intro i hi
      cases i with
      | zero => simpa using hc
      | succ i => rw [Function.iterate_succ_apply]; exact ih _ h i (by omega)
    · rename_i hc
      simp [h] at hc

namespace Lib

/-- With an entry free, the next internal tag is not in use (R65). -/
theorem newTag_fresh (l : Lib) (h : l.reqs.live.length < 48) : ∀ r ∈ l.reqs.live, r.tag ≠ l.newTag := by
  intro r hr he
  have hu : l.newTag ∈ l.reqs.live.map Request.tag := he ▸ List.mem_map_of_mem hr
  have hall := pickTag_used (l.reqs.live.map Request.tag) 49 l.reqs.nextTag hu
  have hnd : ((List.range 49).map fun i => nextInternal^[i] l.reqs.nextTag).Nodup :=
    List.Nodup.map_on (fun i hi j hj e => nextInternal_injOn _ i j (by simpa using hi) (by simpa using hj) e)
      List.nodup_range
  have hsub : ((List.range 49).map fun i => nextInternal^[i] l.reqs.nextTag) ⊆ l.reqs.live.map Request.tag := by
    intro t ht
    obtain ⟨i, hi, rfl⟩ := List.mem_map.mp ht
    exact hall i (by simpa using hi)
  have hlen := (hnd.subperm hsub).length_le
  simp at hlen
  omega

/-! ## The audits -/

/-- The request is an internal AUDIT over a run of columns, QUEUED at priority 1. -/
def AuditOf (q : Request) (c : Span) : Prop :=
  q.kind = .audit ∧ q.origin = .internal ∧ q.priority = 1 ∧ q.state = .queued
    ∧ q.cursor = some { next := c.lo, first := c.lo, last := c.hi }

/-- With an entry free, an audit is made at the end of the table under a tag not in use. -/
theorem createAudit_live (g : Settings) (c : Span) (b : Bool) (l : Lib) (h : l.reqs.live.length < 48) :
    ∃ q, (l.createAudit g c b).2.reqs.live = l.reqs.live ++ [q] ∧ (l.createAudit g c b).1 = q.tag ∧ AuditOf q c
      ∧ (∀ r ∈ l.reqs.live, r.tag ≠ q.tag) ∧ (l.createAudit g c b).2.start = l.start := by
  have hf := newTag_fresh l h
  obtain ⟨q0, hq0⟩ : ∃ q0 : Request, q0 = { freshRequest g l.newTag .internal .audit .none 1 (satAdd max32 l.reqs.arrivals 1)
      with cursor := some { next := c.lo, first := c.lo, last := c.hi }, bySpan := b } := ⟨_, rfl⟩
  have ht : q0.tag = l.newTag := by rw [hq0]; rfl
  have hm : ∀ f : Request → Request, (l.reqs.live ++ [q0]).map (fun r => if r.tag = l.newTag then f r else r)
      = l.reqs.live ++ [f q0] := by
    intro f
    rw [List.map_append]
    congr 1
    · exact (List.map_congr_left fun r hr => if_neg (hf r hr)).trans (List.map_id _)
    · simp [ht]
  obtain ⟨x, hx⟩ : ∃ x, x = (l.createInternal g .audit .none 1 fun r =>
    { r with cursor := some { next := c.lo, first := c.lo, last := c.hi }, bySpan := b }) := ⟨_, rfl⟩
  have hx1 : x.1 = l.newTag := by rw [hx]; rfl
  have hxl : x.2.reqs.live = l.reqs.live ++ [q0] := by rw [hx, hq0]; rfl
  have hxs : x.2.start = l.start := by rw [hx]; rfl
  have hc : l.createAudit g c b = (x.1, x.2.enterQueued g x.1) := by rw [hx]; rfl
  obtain ⟨n, hn⟩ : ∃ n, n = satAdd max32 x.2.reqs.queueSeq 1 := ⟨_, rfl⟩
  have hql : (x.2.takeQueue x.1).reqs.live = l.reqs.live ++ [{ q0 with qseq := some n }] := by
    unfold takeQueue updReq; dsimp only; rw [hx1, hxl, hm, hn]
  have hreq : (x.2.takeQueue x.1).req? x.1 = some { q0 with qseq := some n } := by
    unfold req?; rw [hql, hx1, List.find?_append]
    rw [List.find?_eq_none.mpr (by intro r hr; simpa using hf r hr)]
    simp [ht]
  refine ⟨{ q0 with qseq := some n, state := .queued, stallLeft := some g.timers.stall }, ?_, ?_, ?_, ?_, ?_⟩
  · rw [hc]; unfold enterQueued; dsimp only
    rw [setReqState_live _ _ _ _ _ hreq]
    unfold updReq; dsimp only; rw [hql, hx1, List.map_append]
    congr 1
    · exact (List.map_congr_left fun r hr => if_neg (hf r hr)).trans (List.map_id _)
    · simp [ht, ReqState.inList, ReqState.keepsQueue]
  · rw [hc, hx1, ← ht]
  · rw [hq0]; exact ⟨rfl, rfl, rfl, rfl, rfl⟩
  · intro r hr; exact ht ▸ hf r hr
  · rw [hc]; unfold enterQueued; dsimp only; rw [setReqState_start]; exact hxs

/-- What `makeRuns` does: an audit for each run while an entry is free, in order, and the other runs wait. -/
theorem makeRuns_live (g : Settings) (runs : List Span) (l : Lib) :
    ∃ audits : List Request, (makeRuns g runs l).reqs.live = l.reqs.live ++ audits
      ∧ List.Forall₂ AuditOf audits (runs.take (48 - l.reqs.live.length))
      ∧ (∀ q ∈ audits, ∀ r ∈ l.reqs.live, r.tag ≠ q.tag)
      ∧ (makeRuns g runs l).start.audits = l.start.audits ++ audits.map Request.tag
      ∧ (makeRuns g runs l).start.runs = runs.drop (48 - l.reqs.live.length) := by
  induction runs generalizing l with
  | nil => exact ⟨[], by simp [makeRuns], by simp, by simp, by simp [makeRuns], by simp [makeRuns]⟩
  | cons c cs ih =>
    unfold makeRuns
    by_cases h : l.reqs.live.length < 48
    · have he : l.entryFree = true := decide_eq_true h
      rw [if_pos he]; dsimp only
      obtain ⟨q, h1, h2, h3, h4, h5⟩ := createAudit_live g c false l h
      obtain ⟨as, i1, i2, i3, i4, i5⟩ := ih { (l.createAudit g c false).2 with
        start := { (l.createAudit g c false).2.start with
          audits := (l.createAudit g c false).2.start.audits ++ [(l.createAudit g c false).1] } }
      have hl : 48 - (l.reqs.live ++ [q]).length = 48 - l.reqs.live.length - 1 := by simp; omega
      dsimp only at i1 i2 i3 i4 i5
      rw [h1, hl] at i2 i5
      obtain ⟨k, hk⟩ : ∃ k, 48 - l.reqs.live.length = k + 1 := ⟨47 - l.reqs.live.length, by omega⟩
      rw [hk] at i2 i5 ⊢
      refine ⟨q :: as, by rw [i1, h1]; simp, List.Forall₂.cons h3 i2, ?_, ?_, ?_⟩
      · intro a ha r hr
        rcases List.mem_cons.mp ha with rfl | ha
        · exact h4 r hr
        · exact i3 a ha r (by rw [h1]; exact List.mem_append_left _ hr)
      · rw [i4, h5, h2]; simp
      · rw [i5]; rfl
    · have he : ¬ l.entryFree = true := fun e => h (of_decide_eq_true e)
      rw [if_neg he]
      have : 48 - l.reqs.live.length = 0 := by omega
      rw [this]
      exact ⟨[], by simp, by simp, by simp, by simp, by simp⟩

/-! ## Runs of columns -/

/-- The runs of an ascending list cover exactly its columns, each run in order and apart from the next. -/
theorem runsOf_spec (cs : List Nat) (h : cs.Pairwise (· < ·)) :
    (∀ c, c ∈ cs ↔ ∃ r ∈ runsOf cs, r.lo ≤ c ∧ c ≤ r.hi) ∧ (∀ r ∈ runsOf cs, r.lo ≤ r.hi)
      ∧ (runsOf cs).Pairwise (fun r q => r.hi + 1 < q.lo) := by
  induction cs with
  | nil => simp [runsOf]
  | cons a cs ih =>
    obtain ⟨hc, hlo, hp⟩ := ih h.of_cons
    have hgt : ∀ c ∈ cs, a < c := (List.pairwise_cons.mp h).1
    unfold runsOf
    cases hr : runsOf cs with
    | nil =>
      rw [hr] at hc
      refine ⟨fun c => ?_, by simp [Span.point], by simp⟩
      have : c ∉ cs := by rw [hc c]; simp
      simp [this, Span.point]; omega
    | cons r rs =>
      rw [hr] at hc hlo hp
      obtain ⟨hp1, hp2⟩ := List.pairwise_cons.mp hp
      have hrl := hlo r (by simp)
      have har : a < r.lo := hgt _ ((hc _).mpr ⟨r, by simp, Nat.le_refl _, hrl⟩)
      dsimp only
      split
      · rename_i he
        refine ⟨fun c => ?_, ?_, ?_⟩
        · rw [List.mem_cons, hc c]; simp only [List.mem_cons, exists_eq_or_imp]
          constructor
          · rintro (rfl | ⟨h1, h2⟩ | h)
            · left; omega
            · left; omega
            · right; exact h
          · rintro (⟨h1, h2⟩ | h)
            · by_cases hca : c = a
              · left; exact hca
              · right; left; omega
            · right; right; exact h
        · intro q hq
          rcases List.mem_cons.mp hq with rfl | hq
          · show a ≤ r.hi; omega
          · exact hlo q (by simp [hq])
        · exact List.pairwise_cons.mpr ⟨fun q hq => hp1 q hq, hp2⟩
      · rename_i he
        refine ⟨fun c => ?_, ?_, ?_⟩
        · rw [List.mem_cons, hc c]; simp only [List.mem_cons, exists_eq_or_imp, Span.point]
          constructor
          · rintro (rfl | h)
            · left; omega
            · right; exact h
          · rintro (h | h)
            · left; omega
            · right; exact h
        · intro q hq
          rcases List.mem_cons.mp hq with rfl | hq
          · exact Nat.le_refl a
          · exact hlo q hq
        · refine List.pairwise_cons.mpr ⟨fun q hq => ?_, hp⟩
          show a + 1 < q.lo
          rcases List.mem_cons.mp hq with rfl | hq
          · omega
          · have := hp1 q hq; omega

end Lib
end Sys2Proof.Machine
end

