-- ==== Sys2Proof/Laws/Base.lean ====
section
/-! SUPPORT. The operations keep `Lib.base` (Safety): the header of the record memory, the library state and
where start-up stands. One lemma per operation; the events that change it (POWER_ON, ENTER_READY, Format
Catalogue and the like) have none. -/

namespace Sys2Proof.Machine

@[simp] theorem Lib.foldl_base {α : Type} (f : Lib → α → Lib) (h : ∀ l a, (f l a).base = l.base) (xs : List α)
    (l : Lib) : (xs.foldl f l).base = l.base := by
  induction xs generalizing l with
  | nil => rfl
  | cons x xs ih => rw [List.foldl_cons, ih, h]

@[simp] theorem Lib.updDrive_base (d : Nat) (f : Drive → Drive) (l : Lib) :
    (l.updDrive d f).base = l.base := rfl
@[simp] theorem Lib.send_base (m : Msg) (l : Lib) : (l.send m).base = l.base :=
  congrArg Fixed.base (Lib.send_fixed m l)
@[simp] theorem Lib.raise_base (r : Raising) (l : Lib) : (l.raise r).base = l.base :=
  congrArg Fixed.base (Lib.raise_fixed r l)
@[simp] theorem Lib.raisePlain_base (s : Source) (l : Lib) : (l.raisePlain s).base = l.base :=
  congrArg Fixed.base (Lib.raisePlain_fixed s l)
@[simp] theorem Lib.raiseDrive_base (s : Source) (d : Nat) (l : Lib) : (l.raiseDrive s d).base = l.base :=
  congrArg Fixed.base (Lib.raiseDrive_fixed s d l)
@[simp] theorem Lib.raiseRequest_base (s : Source) (t : Nat) (l : Lib) : (l.raiseRequest s t).base = l.base :=
  congrArg Fixed.base (Lib.raiseRequest_fixed s t l)
@[simp] theorem Lib.raiseColumns_base (s : Source) (c : Option Span) (l : Lib) :
    (l.raiseColumns s c).base = l.base :=
  congrArg Fixed.base (Lib.raiseColumns_fixed s c l)
@[simp] theorem Lib.raiseAccessor_base (x : AccId) (c : Span) (l : Lib) :
    (l.raiseAccessor x c).base = l.base :=
  congrArg Fixed.base (Lib.raiseAccessor_fixed x c l)
@[simp] theorem Lib.raiseMissing_base (s : Serial) (c : Option Span) (l : Lib) :
    (l.raiseMissing s c).base = l.base :=
  congrArg Fixed.base (Lib.raiseMissing_fixed s c l)
@[simp] theorem Lib.wake_base (l : Lib) : (l.wake).base = l.base :=
  congrArg Fixed.base (Lib.wake_fixed l)
@[simp] theorem Lib.notePlaceFreed_base (l : Lib) : (l.notePlaceFreed).base = l.base :=
  congrArg Fixed.base (Lib.notePlaceFreed_fixed l)
@[simp] theorem Lib.noteEntryFreed_base (l : Lib) : (l.noteEntryFreed).base = l.base :=
  congrArg Fixed.base (Lib.noteEntryFreed_fixed l)
@[simp] theorem Lib.noteOffer_base (d : Nat) (l : Lib) : (l.noteOffer d).base = l.base :=
  congrArg Fixed.base (Lib.noteOffer_fixed d l)
@[simp] theorem Lib.updVol_base (s : Serial) (f : Volume → Volume) (l : Lib) : (l.updVol s f).base = l.base :=
  congrArg Fixed.base (Lib.updVol_fixed s f l)
@[simp] theorem Lib.addVol_base (v : Volume) (l : Lib) : (l.addVol v).base = l.base :=
  congrArg Fixed.base (Lib.addVol_fixed v l)
@[simp] theorem Lib.dropVol_base (s : Serial) (l : Lib) : (l.dropVol s).base = l.base :=
  congrArg Fixed.base (Lib.dropVol_fixed s l)
@[simp] theorem Lib.updReq_base (t : Nat) (f : Request → Request) (l : Lib) : (l.updReq t f).base = l.base :=
  congrArg Fixed.base (Lib.updReq_fixed t f l)
@[simp] theorem Lib.updAcc_base (x : AccId) (f : Accessor → Accessor) (l : Lib) :
    (l.updAcc x f).base = l.base :=
  congrArg Fixed.base (Lib.updAcc_fixed x f l)
@[simp] theorem Lib.updAcct_base (n : Nat) (f : Account → Account) (l : Lib) : (l.updAcct n f).base = l.base :=
  congrArg Fixed.base (Lib.updAcct_fixed n f l)
@[simp] theorem Lib.setCause_base (n : Nat) (l : Lib) : (l.setCause n).base = l.base :=
  congrArg Fixed.base (Lib.setCause_fixed n l)
@[simp] theorem Lib.addLinked_base (s : Source) (l : Lib) : (l.addLinked s).base = l.base :=
  congrArg Fixed.base (Lib.addLinked_fixed s l)
@[simp] theorem Lib.clearAttention_base (l : Lib) : (l.clearAttention).base = l.base :=
  congrArg Fixed.base (Lib.clearAttention_fixed l)
@[simp] theorem Lib.setPrompt_base (k : Nat) (p : Option Prompt) (l : Lib) : (l.setPrompt k p).base = l.base :=
  congrArg Fixed.base (Lib.setPrompt_fixed k p l)
@[simp] theorem Lib.display_base (x : Nat × Prompt) (force : Bool) (l : Lib) :
    (l.display x force).base = l.base :=
  congrArg Fixed.base (Lib.display_fixed x force l)
@[simp] theorem Lib.presentFirst_base (l : Lib) : (l.presentFirst).base = l.base :=
  congrArg Fixed.base (Lib.presentFirst_fixed l)
@[simp] theorem Lib.refresh_base (posting : Nat) (force : Bool) (l : Lib) :
    (l.refresh posting force).base = l.base :=
  congrArg Fixed.base (Lib.refresh_fixed posting force l)
@[simp] theorem Lib.fillSlot_base (g : Settings) (k : Nat) (d : Draft) (l : Lib) :
    (l.fillSlot g k d).base = l.base :=
  congrArg Fixed.base (Lib.fillSlot_fixed g k d l)
@[simp] theorem Lib.postAt_base (g : Settings) (k : Nat) (d : Draft) (l : Lib) :
    (l.postAt g k d).base = l.base :=
  congrArg Fixed.base (Lib.postAt_fixed g k d l)
@[simp] theorem Lib.offerSlot_base (g : Settings) (l : Lib) : (l.offerSlot g).base = l.base :=
  congrArg Fixed.base (Lib.offerSlot_fixed g l)
@[simp] theorem Lib.offerSlots_base (g : Settings) (n : Nat) (l : Lib) : (Lib.offerSlots g n l).base = l.base :=
  congrArg Fixed.base (Lib.offerSlots_fixed g n l)
@[simp] theorem Lib.emptySlot_base (k : Nat) (l : Lib) : (l.emptySlot k).base = l.base :=
  congrArg Fixed.base (Lib.emptySlot_fixed k l)
@[simp] theorem Lib.withdrawSlot_base (g : Settings) (k : Nat) (l : Lib) : (l.withdrawSlot g k).base = l.base :=
  congrArg Fixed.base (Lib.withdrawSlot_fixed g k l)
@[simp] theorem Lib.withdrawWhere_base (g : Settings) (test : Prompt → Bool) (l : Lib) :
    (l.withdrawWhere g test).base = l.base :=
  congrArg Fixed.base (Lib.withdrawWhere_fixed g test l)
@[simp] theorem Lib.withdrawNotice_base (g : Settings) (kind : PromptKind) (test : PromptSubject → Bool) (l : Lib) :
    (l.withdrawNotice g kind test).base = l.base :=
  congrArg Fixed.base (Lib.withdrawNotice_fixed g kind test l)
@[simp] theorem Lib.postNotice_base (g : Settings) (kind : PromptKind) (subject : PromptSubject) (detail : Nat) (l : Lib) :
    (l.postNotice g kind subject detail).base = l.base :=
  congrArg Fixed.base (Lib.postNotice_fixed g kind subject detail l)
@[simp] theorem Lib.joinPromptWaits_base (kind : PromptKind) (tag : Nat) (subject : PromptSubject) (detail : Nat) (l : Lib) :
    (l.joinPromptWaits kind tag subject detail).base = l.base :=
  congrArg Fixed.base (Lib.joinPromptWaits_fixed kind tag subject detail l)
@[simp] theorem Lib.dropWait_base (tag : Nat) (l : Lib) : (l.dropWait tag).base = l.base :=
  congrArg Fixed.base (Lib.dropWait_fixed tag l)
@[simp] theorem Lib.clearRequestPrompt_base (g : Settings) (tag : Nat) (l : Lib) :
    (l.clearRequestPrompt g tag).base = l.base :=
  congrArg Fixed.base (Lib.clearRequestPrompt_fixed g tag l)
@[simp] theorem Lib.postRequest_base (g : Settings) (kind : PromptKind) (tag : Nat) (subject : PromptSubject) (detail : Nat) (l : Lib) :
    (l.postRequest g kind tag subject detail).base = l.base :=
  congrArg Fixed.base (Lib.postRequest_fixed g kind tag subject detail l)
@[simp] theorem Lib.answerMessage_base (x : Nat × Prompt) (answer : Answer) (l : Lib) :
    (l.answerMessage x answer).base = l.base :=
  congrArg Fixed.base (Lib.answerMessage_fixed x answer l)
@[simp] theorem Lib.markWrongVolume_base (tag : Nat) (wrong : Bool) (l : Lib) :
    (l.markWrongVolume tag wrong).base = l.base :=
  congrArg Fixed.base (Lib.markWrongVolume_fixed tag wrong l)
@[simp] theorem Lib.retagPrompts_base (old new : Nat) (l : Lib) : (l.retagPrompts old new).base = l.base :=
  congrArg Fixed.base (Lib.retagPrompts_fixed old new l)
@[simp] theorem Lib.evalLow_base (g : Settings) (l : Lib) : (l.evalLow g).base = l.base :=
  congrArg Fixed.base (Lib.evalLow_fixed g l)
@[simp] theorem Lib.judgeLow_base (g : Settings) (l : Lib) :
    (l.judgeLow g).base = l.base :=
  congrArg Fixed.base (Lib.judgeLow_fixed g l)
@[simp] theorem Lib.placeOnScratch_base (s : Serial) (l : Lib) : (l.placeOnScratch s).base = l.base :=
  congrArg Fixed.base (Lib.placeOnScratch_fixed s l)
@[simp] theorem Lib.syncScratch_base (g : Settings) (s : Serial) (l : Lib) :
    (l.syncScratch g s).base = l.base :=
  congrArg Fixed.base (Lib.syncScratch_fixed g s l)
@[simp] theorem Lib.syncAllScratch_base (g : Settings) (l : Lib) : (l.syncAllScratch g).base = l.base :=
  congrArg Fixed.base (Lib.syncAllScratch_fixed g l)
@[simp] theorem Lib.orderJoined_base (was : List Serial) (l : Lib) :
    (l.orderJoined was).base = l.base :=
  congrArg Fixed.base (Lib.orderJoined_fixed was l)
@[simp] theorem Lib.changeVol_base (g : Settings) (s : Serial) (f : Volume → Volume) (l : Lib) :
    (l.changeVol g s f).base = l.base :=
  congrArg Fixed.base (Lib.changeVol_fixed g s f l)
@[simp] theorem Lib.moveVol_base (g : Settings) (s : Serial) (st : VolState) (l : Lib) :
    (l.moveVol g s st).base = l.base :=
  congrArg Fixed.base (Lib.moveVol_fixed g s st l)
@[simp] theorem Lib.setCell_base (n : Nat) (c : Cell) (l : Lib) : (l.setCell n c).base = l.base :=
  congrArg Fixed.base (Lib.setCell_fixed n c l)
@[simp] theorem Lib.reserveHome_base (g : Settings) (s : Serial) (n : Nat) (l : Lib) :
    (l.reserveHome g s n).base = l.base :=
  congrArg Fixed.base (Lib.reserveHome_fixed g s n l)
@[simp] theorem Lib.clearHome_base (g : Settings) (s : Serial) (c : Cell) (l : Lib) :
    (l.clearHome g s c).base = l.base :=
  congrArg Fixed.base (Lib.clearHome_fixed g s c l)
@[simp] theorem Lib.clearMarks_base (tag : Nat) (l : Lib) : (l.clearMarks tag).base = l.base :=
  congrArg Fixed.base (Lib.clearMarks_fixed tag l)
@[simp] theorem Lib.updateRemove_base (g : Settings) (l : Lib) : (l.updateRemove g).base = l.base :=
  congrArg Fixed.base (Lib.updateRemove_fixed g l)
@[simp] theorem Lib.emptyPlaceSlot_base (g : Settings) (tag : Nat) (l : Lib) :
    (l.emptyPlaceSlot g tag).base = l.base :=
  congrArg Fixed.base (Lib.emptyPlaceSlot_fixed g tag l)
@[simp] theorem Lib.changeSlot_base (g : Settings) (k : Nat) (s : Slot) (l : Lib) :
    (l.changeSlot g k s).base = l.base :=
  congrArg Fixed.base (Lib.changeSlot_fixed g k s l)
@[simp] theorem Lib.setSlot_base (g : Settings) (k : Nat) (s : Slot) (l : Lib) :
    (l.setSlot g k s).base = l.base :=
  congrArg Fixed.base (Lib.setSlot_fixed g k s l)
@[simp] theorem Lib.postRejected_base (g : Settings) (k : Nat) (label : Option Serial) (why : Reject) (l : Lib) :
    (l.postRejected g k label why).base = l.base :=
  congrArg Fixed.base (Lib.postRejected_fixed g k label why l)
@[simp] theorem Lib.rejectSlot_base (g : Settings) (k : Nat) (label : Option Serial) (why : Reject) (l : Lib) :
    (l.rejectSlot g k label why).base = l.base :=
  congrArg Fixed.base (Lib.rejectSlot_fixed g k label why l)
@[simp] theorem Lib.freePlaceSlot_base (g : Settings) (tag : Nat) (l : Lib) :
    (l.freePlaceSlot g tag).base = l.base :=
  congrArg Fixed.base (Lib.freePlaceSlot_fixed g tag l)
@[simp] theorem Lib.declareMissing_base (g : Settings) (s : Serial) (cellTo : Cell) (l : Lib) :
    (l.declareMissing g s cellTo).base = l.base :=
  congrArg Fixed.base (Lib.declareMissing_fixed g s cellTo l)
@[simp] theorem Lib.accrue_base (account : Option Nat) (f : Account → Account) (l : Lib) :
    (l.accrue account f).base = l.base :=
  congrArg Fixed.base (Lib.accrue_fixed account f l)
@[simp] theorem Lib.reserveDrive_base (d tag : Nat) (cause : Cause) (l : Lib) :
    (l.reserveDrive d tag cause).base = l.base :=
  congrArg Fixed.base (Lib.reserveDrive_fixed d tag cause l)
@[simp] theorem Lib.driveFreed_base (d : Nat) (l : Lib) : (l.driveFreed d).base = l.base :=
  congrArg Fixed.base (Lib.driveFreed_fixed d l)
@[simp] theorem Lib.releaseDrive_base (d : Nat) (l : Lib) : (l.releaseDrive d).base = l.base :=
  congrArg Fixed.base (Lib.releaseDrive_fixed d l)
@[simp] theorem Lib.becomeIdle_base (g : Settings) (d : Nat) (l : Lib) :
    (l.becomeIdle g d).base = l.base :=
  congrArg Fixed.base (Lib.becomeIdle_fixed g d l)
@[simp] theorem Lib.enterIdle_base (g : Settings) (d : Nat) (l : Lib) : (l.enterIdle g d).base = l.base :=
  congrArg Fixed.base (Lib.enterIdle_fixed g d l)
@[simp] theorem Lib.leaveDrives_base (tag : Nat) (l : Lib) : (l.leaveDrives tag).base = l.base :=
  congrArg Fixed.base (Lib.leaveDrives_fixed tag l)
@[simp] theorem Lib.postAttention_base (g : Settings) (d : Nat) (waiting : Option Nat) (l : Lib) :
    (l.postAttention g d waiting).base = l.base :=
  congrArg Fixed.base (Lib.postAttention_fixed g d waiting l)
@[simp] theorem Lib.clearAttentionPrompt_base (g : Settings) (d : Nat) (l : Lib) :
    (l.clearAttentionPrompt g d).base = l.base :=
  congrArg Fixed.base (Lib.clearAttentionPrompt_fixed g d l)
@[simp] theorem Lib.checkCleaning_base (d : Nat) (l : Lib) : (l.checkCleaning d).base = l.base :=
  congrArg Fixed.base (Lib.checkCleaning_fixed d l)
@[simp] theorem Lib.setReqState_base (g : Settings) (t : Nat) (st : ReqState) (l : Lib) :
    (l.setReqState g t st).base = l.base :=
  congrArg Fixed.base (Lib.setReqState_fixed g t st l)
@[simp] theorem Lib.takeQueue_base (t : Nat) (l : Lib) : (l.takeQueue t).base = l.base :=
  congrArg Fixed.base (Lib.takeQueue_fixed t l)
@[simp] theorem Lib.enterQueued_base (g : Settings) (t : Nat) (l : Lib) : (l.enterQueued g t).base = l.base :=
  congrArg Fixed.base (Lib.enterQueued_fixed g t l)
@[simp] theorem Lib.enterReturnReady_base (g : Settings) (t : Nat) (source : Place) (l : Lib) :
    (l.enterReturnReady g t source).base = l.base :=
  congrArg Fixed.base (Lib.enterReturnReady_fixed g t source l)
@[simp] theorem Lib.fixCode_base (t : Nat) (c : Code) (l : Lib) : (l.fixCode t c).base = l.base :=
  congrArg Fixed.base (Lib.fixCode_fixed t c l)
@[simp] theorem Lib.dropDrive_base (t : Nat) (l : Lib) :
    (l.dropDrive t).base = l.base :=
  congrArg Fixed.base (Lib.dropDrive_fixed t l)
@[simp] theorem Lib.takeHold_base (g : Settings) (s : Serial) (t : Nat) (l : Lib) :
    (l.takeHold g s t).base = l.base :=
  congrArg Fixed.base (Lib.takeHold_fixed g s t l)
@[simp] theorem Lib.releaseHold_base (g : Settings) (t : Nat) (l : Lib) : (l.releaseHold g t).base = l.base :=
  congrArg Fixed.base (Lib.releaseHold_fixed g t l)
@[simp] theorem Lib.freeEntry_base (t : Nat) (l : Lib) : (l.freeEntry t).base = l.base :=
  congrArg Fixed.base (Lib.freeEntry_fixed t l)
@[simp] theorem Lib.complete_base (g : Settings) (t : Nat) (c : Code) (l : Lib) :
    (l.complete g t c).base = l.base :=
  congrArg Fixed.base (Lib.complete_fixed g t c l)
@[simp] theorem Lib.admitReq_base (g : Settings) (tag : Nat) (origin : Origin) (kind : Kind) (cargo : Cargo) (priority : Nat) (fill : Request → Request) (l : Lib) :
    (l.admitReq g tag origin kind cargo priority fill).base = l.base :=
  congrArg Fixed.base (Lib.admitReq_fixed g tag origin kind cargo priority fill l)
@[simp] theorem Lib.rotate_base (t : Nat) (l : Lib) : (l.rotate t).base = l.base :=
  congrArg Fixed.base (Lib.rotate_fixed t l)
@[simp] theorem Lib.createInternal_base (g : Settings) (kind : Kind) (cargo : Cargo) (priority : Nat)
    (fill : Request → Request) (l : Lib) : (l.createInternal g kind cargo priority fill).2.base = l.base :=
  congrArg Fixed.base (Lib.createInternal_fixed g kind cargo priority fill l)
@[simp] theorem Lib.createReturn_base (g : Settings) (cargo : Cargo) (source : Place) (l : Lib) :
    (l.createReturn g cargo source).2.base = l.base :=
  congrArg Fixed.base (Lib.createReturn_fixed g cargo source l)
@[simp] theorem Lib.createAudit_base (g : Settings) (columns : Span) (bySpan : Bool) (l : Lib) :
    (l.createAudit g columns bySpan).2.base = l.base :=
  congrArg Fixed.base (Lib.createAudit_fixed g columns bySpan l)
@[simp] theorem Lib.queueClean_base (g : Settings) (d : Nat) (l : Lib) : (l.queueClean g d).base = l.base :=
  congrArg Fixed.base (Lib.queueClean_fixed g d l)
@[simp] theorem Lib.startImport_base (g : Settings) (k : Nat) (label : Option Serial) (s : Serial) (c : Option Nat) (l : Lib) :
    (l.startImport g k label s c).base = l.base :=
  congrArg Fixed.base (Lib.startImport_fixed g k label s c l)
@[simp] theorem Lib.handOver_base (g : Settings) (k : Nat) (s : Serial) (l : Lib) :
    (l.handOver g k s).base = l.base :=
  congrArg Fixed.base (Lib.handOver_fixed g k s l)
@[simp] theorem Lib.completeCancelled_base (g : Settings) (t : Nat) (l : Lib) :
    (l.completeCancelled g t).base = l.base :=
  congrArg Fixed.base (Lib.completeCancelled_fixed g t l)
@[simp] theorem Lib.backToList_base (g : Settings) (t : Nat) (l : Lib) : (l.backToList g t).base = l.base :=
  congrArg Fixed.base (Lib.backToList_fixed g t l)
@[simp] theorem Lib.giveManual_base (g : Settings) (d t : Nat) (l : Lib) : (l.giveManual g d t).base = l.base :=
  congrArg Fixed.base (Lib.giveManual_fixed g d t l)
@[simp] theorem Lib.chooseRoute_base (g : Settings) (t : Nat) (l : Lib) : (l.chooseRoute g t).base = l.base :=
  congrArg Fixed.base (Lib.chooseRoute_fixed g t l)
@[simp] theorem Lib.offerManual_base (g : Settings) (d : Nat) (l : Lib) : (l.offerManual g d).base = l.base :=
  congrArg Fixed.base (Lib.offerManual_fixed g d l)
@[simp] theorem Lib.leaveHeld_base (g : Settings) (t : Nat) (l : Lib) : (l.leaveHeld g t).base = l.base :=
  congrArg Fixed.base (Lib.leaveHeld_fixed g t l)
@[simp] theorem Lib.reqMounted_base (g : Settings) (t : Nat) (l : Lib) : (l.reqMounted g t).base = l.base :=
  congrArg Fixed.base (Lib.reqMounted_fixed g t l)
@[simp] theorem Lib.reqUnmounted_base (g : Settings) (t : Nat) (l : Lib) : (l.reqUnmounted g t).base = l.base :=
  congrArg Fixed.base (Lib.reqUnmounted_fixed g t l)
@[simp] theorem Lib.reqRewinding_base (g : Settings) (t : Nat) (l : Lib) : (l.reqRewinding g t).base = l.base :=
  congrArg Fixed.base (Lib.reqRewinding_fixed g t l)
@[simp] theorem Lib.returnFromDrive_base (g : Settings) (d : Nat) (l : Lib) :
    (l.returnFromDrive g d).base = l.base :=
  congrArg Fixed.base (Lib.returnFromDrive_fixed g d l)
@[simp] theorem Lib.enterAwaitPick_base (g : Settings) (d : Nat) (l : Lib) :
    (l.enterAwaitPick g d).base = l.base :=
  congrArg Fixed.base (Lib.enterAwaitPick_fixed g d l)
@[simp] theorem Lib.updateLock_base (l : Lib) : (l.updateLock).base = l.base :=
  congrArg Fixed.base (Lib.updateLock_fixed l)
@[simp] theorem Lib.sendOrder_base (g : Settings) (x : AccId) (l : Lib) : (l.sendOrder g x).base = l.base :=
  congrArg Fixed.base (Lib.sendOrder_fixed g x l)
@[simp] theorem Lib.sendQuery_base (g : Settings) (x : AccId) (why : QueryFor) (l : Lib) :
    (l.sendQuery g x why).base = l.base :=
  congrArg Fixed.base (Lib.sendQuery_fixed g x why l)
@[simp] theorem Lib.leftWait_base (x : AccId) (l : Lib) : (l.leftWait x).base = l.base :=
  congrArg Fixed.base (Lib.leftWait_fixed x l)
@[simp] theorem Lib.granted_base (g : Settings) (x : AccId) (s : Span) (l : Lib) :
    (l.granted g x s).base = l.base :=
  congrArg Fixed.base (Lib.granted_fixed g x s l)
@[simp] theorem Lib.retest_base (g : Settings) (x : AccId) (l : Lib) : (l.retest g x).base = l.base :=
  congrArg Fixed.base (Lib.retest_fixed g x l)
@[simp] theorem Lib.startYield_base (g : Settings) (y : AccId) (c : Nat) (l : Lib) :
    (l.startYield g y c).base = l.base :=
  congrArg Fixed.base (Lib.startYield_fixed g y c l)
@[simp] theorem Lib.setCauseOf_base (o : Order) (c : Cause) (l : Lib) : (l.setCauseOf o c).base = l.base :=
  congrArg Fixed.base (Lib.setCauseOf_fixed o c l)
@[simp] theorem Lib.releaseReservations_base (g : Settings) (o : Order) (t : Nat) (l : Lib) :
    (l.releaseReservations g o t).base = l.base :=
  congrArg Fixed.base (Lib.releaseReservations_fixed g o t l)
@[simp] theorem Lib.withdrawStaged_base (g : Settings) (x : AccId) (l : Lib) :
    (l.withdrawStaged g x).base = l.base :=
  congrArg Fixed.base (Lib.withdrawStaged_fixed g x l)
@[simp] theorem Lib.dropStaged_base (g : Settings) (t : Nat) (l : Lib) : (l.dropStaged g t).base = l.base :=
  congrArg Fixed.base (Lib.dropStaged_fixed g t l)
@[simp] theorem Lib.withdrawFor_base (g : Settings) (t : Nat) (l : Lib) : (l.withdrawFor g t).base = l.base :=
  congrArg Fixed.base (Lib.withdrawFor_fixed g t l)
@[simp] theorem Lib.setAside_base (g : Settings) (x : AccId) (need : Span) (l : Lib) :
    (l.setAside g x need).base = l.base :=
  congrArg Fixed.base (Lib.setAside_fixed g x need l)
@[simp] theorem Lib.contend_base (g : Settings) (x : AccId) (l : Lib) : (l.contend g x).base = l.base :=
  congrArg Fixed.base (Lib.contend_fixed g x l)
@[simp] theorem Lib.enterWait_base (g : Settings) (x : AccId) (s : Span) (l : Lib) :
    (l.enterWait g x s).base = l.base :=
  congrArg Fixed.base (Lib.enterWait_fixed g x s l)
@[simp] theorem Lib.takeUp_base (g : Settings) (x : AccId) (l : Lib) : (l.takeUp g x).base = l.base :=
  congrArg Fixed.base (Lib.takeUp_fixed g x l)
@[simp] theorem Lib.holdReel_base (g : Settings) (x : AccId) (l : Lib) : (l.holdReel g x).base = l.base :=
  congrArg Fixed.base (Lib.holdReel_fixed g x l)
@[simp] theorem Lib.decideAs_base (b : Bool) (x : AccId) (l : Lib) :
    (l.decideAs b x).base = l.base :=
  congrArg Fixed.base (Lib.decideAs_fixed b x l)
@[simp] theorem Lib.clearHeldNotice_base (g : Settings) (x : AccId) (l : Lib) :
    (l.clearHeldNotice g x).base = l.base :=
  congrArg Fixed.base (Lib.clearHeldNotice_fixed g x l)
@[simp] theorem Lib.retarget_base (g : Settings) (x : AccId) (d : Place) (l : Lib) :
    (l.retarget g x d).base = l.base :=
  congrArg Fixed.base (Lib.retarget_fixed g x d l)
@[simp] theorem Lib.retargetOrHold_base (g : Settings) (x : AccId) (l : Lib) :
    (l.retargetOrHold g x).base = l.base :=
  congrArg Fixed.base (Lib.retargetOrHold_fixed g x l)
@[simp] theorem Lib.tryHeld_base (g : Settings) (x : AccId) (l : Lib) : (l.tryHeld g x).base = l.base :=
  congrArg Fixed.base (Lib.tryHeld_fixed g x l)
@[simp] theorem Lib.offerPlaces_base (g : Settings) (l : Lib) :
    (l.offerPlaces g).base = l.base :=
  congrArg Fixed.base (Lib.offerPlaces_fixed g l)
@[simp] theorem Lib.makeCurrent_base (g : Settings) (x : AccId) (o : Order) (l : Lib) :
    (l.makeCurrent g x o).base = l.base :=
  congrArg Fixed.base (Lib.makeCurrent_fixed g x o l)
@[simp] theorem Lib.promote_base (g : Settings) (x : AccId) (l : Lib) : (l.promote g x).base = l.base :=
  congrArg Fixed.base (Lib.promote_fixed g x l)
@[simp] theorem Lib.serveWaiter_base (g : Settings) (y : AccId) (l : Lib) : (l.serveWaiter g y).base = l.base :=
  congrArg Fixed.base (Lib.serveWaiter_fixed g y l)
@[simp] theorem Lib.endOrder_base (g : Settings) (y : AccId) (l : Lib) : (l.endOrder g y).base = l.base :=
  congrArg Fixed.base (Lib.endOrder_fixed g y l)
@[simp] theorem Lib.abandon_base (g : Settings) (x : AccId) (l : Lib) : (l.abandon g x).base = l.base :=
  congrArg Fixed.base (Lib.abandon_fixed g x l)
@[simp] theorem Lib.driveLost_base (g : Settings) (t : Nat) (l : Lib) : (l.driveLost g t).base = l.base :=
  congrArg Fixed.base (Lib.driveLost_fixed g t l)
@[simp] theorem Lib.unreserve_base (g : Settings) (d : Nat) (l : Lib) : (l.unreserve g d).base = l.base :=
  congrArg Fixed.base (Lib.unreserve_fixed g d l)
@[simp] theorem Lib.loseVolume_base (g : Settings) (s : Serial) (cellTo : Cell) (l : Lib) :
    (l.loseVolume g s cellTo).base = l.base :=
  congrArg Fixed.base (Lib.loseVolume_fixed g s cellTo l)
@[simp] theorem Lib.faultedOrder_base (g : Settings) (o : Order) (l : Lib) :
    (l.faultedOrder g o).base = l.base :=
  congrArg Fixed.base (Lib.faultedOrder_fixed g o l)
@[simp] theorem Lib.dropUnreachable_base (g : Settings) (x : AccId) (l : Lib) :
    (l.dropUnreachable g x).base = l.base :=
  congrArg Fixed.base (Lib.dropUnreachable_fixed g x l)
@[simp] theorem Lib.faultAcc_base (g : Settings) (x : AccId) (why : FaultCause) (column : Option Nat) (l : Lib) :
    (l.faultAcc g x why column).base = l.base :=
  congrArg Fixed.base (Lib.faultAcc_fixed g x why column l)
@[simp] theorem Lib.prepare_base (g : Settings) (x : AccId) (r : Request) (l : Lib) :
    (l.prepare g x r).1.base = l.base :=
  congrArg Fixed.base (Lib.prepare_fixed g x r l)
@[simp] theorem Lib.stage_base (g : Settings) (x : AccId) (r : Request) (l : Lib) :
    (l.stage g x r).base = l.base :=
  congrArg Fixed.base (Lib.stage_fixed g x r l)
@[simp] theorem Lib.tryJob_base (g : Settings) (l : Lib) (t : Nat) : (Lib.tryJob g l t).base = l.base :=
  congrArg Fixed.base (Lib.tryJob_fixed g l t)
@[simp] theorem Lib.pass_base (g : Settings) (l : Lib) : (l.pass g).base = l.base :=
  congrArg Fixed.base (Lib.pass_fixed g l)
@[simp] theorem Lib.passes_base (g : Settings) (n : Nat) (l : Lib) : (Lib.passes g n l).base = l.base :=
  congrArg Fixed.base (Lib.passes_fixed g n l)
@[simp] theorem Lib.dispatch_base (g : Settings) (n : Nat) (l : Lib) : (Lib.dispatch g n l).base = l.base :=
  congrArg Fixed.base (Lib.dispatch_fixed g n l)
@[simp] theorem Lib.settleSlot_base (g : Settings) (l : Lib) (k : Nat) : (Lib.settleSlot g l k).base = l.base :=
  congrArg Fixed.base (Lib.settleSlot_fixed g l k)
@[simp] theorem Lib.scan_base (g : Settings) (l : Lib) : (l.scan g).base = l.base :=
  congrArg Fixed.base (Lib.scan_fixed g l)
@[simp] theorem Lib.postNoticeFor_base (g : Settings) (r : Raising) (l : Lib) :
    (l.postNoticeFor g r).base = l.base :=
  congrArg Fixed.base (Lib.postNoticeFor_fixed g r l)
@[simp] theorem Lib.act_base (g : Settings) (l : Lib) (r : Raising) : (Lib.act g l r).base = l.base :=
  congrArg Fixed.base (Lib.act_fixed g l r)
@[simp] theorem Lib.makeRuns_base (g : Settings) (rs : List Span) (l : Lib) :
    (Lib.makeRuns g rs l).base = l.base :=
  congrArg Fixed.base (Lib.makeRuns_fixed g rs l)
@[simp] theorem Lib.offerEntries_base (g : Settings) (l : Lib) : (l.offerEntries g).base = l.base :=
  congrArg Fixed.base (Lib.offerEntries_fixed g l)
@[simp] theorem Lib.settleOne_base (g : Settings) (l : Lib) : (l.settleOne g).base = l.base :=
  congrArg Fixed.base (Lib.settleOne_fixed g l)
@[simp] theorem Lib.quiesce_base (g : Settings) (n : Nat) (l : Lib) : (Lib.quiesce g n l).base = l.base :=
  congrArg Fixed.base (Lib.quiesce_fixed g n l)
@[simp] theorem Lib.rounds_base (g : Settings) (n : Nat) (l : Lib) : (Lib.rounds g n l).base = l.base :=
  congrArg Fixed.base (Lib.rounds_fixed g n l)
@[simp] theorem Lib.settle_base (g : Settings) (l : Lib) : (l.settle g).base = l.base :=
  congrArg Fixed.base (Lib.settle_fixed g l)

@[simp] theorem Lib.closeMounted_base (g : Settings) (d : Nat) (l : Lib) :
    (l.closeMounted g d).base = l.base := by
  unfold Lib.closeMounted; split <;> simp

@[simp] theorem Lib.enterRewinding_base (g : Settings) (d : Nat) (l : Lib) :
    (l.enterRewinding g d).base = l.base := by
  unfold Lib.enterRewinding; simp

@[simp] theorem Lib.orderUnload_base (g : Settings) (d : Nat) (l : Lib) :
    (l.orderUnload g d).base = l.base := by
  unfold Lib.orderUnload; simp

@[simp] theorem Lib.enterFaulted_base (g : Settings) (d code : Nat) (l : Lib) :
    (l.enterFaulted g d code).base = l.base := by
  unfold Lib.enterFaulted; simp

@[simp] theorem Lib.cleaned_base (g : Settings) (d : Nat) (l : Lib) : (l.cleaned g d).base = l.base := by
  unfold Lib.cleaned; simp

@[simp] theorem Lib.mountAt_base (g : Settings) (d t : Nat) (l : Lib) : (l.mountAt g d t).base = l.base := by
  unfold Lib.mountAt; simp


@[simp] theorem Lib.clampAcc_base (x : AccId) (l : Lib) :
    (l.clampAcc x).base = l.base := by
  unfold Lib.clampAcc; simp

@[simp] theorem Lib.startHoming_base (g : Settings) (x : AccId) (l : Lib) :
    (l.startHoming g x).base = l.base := by
  unfold Lib.startHoming; dsimp only; (repeat' split) <;> simp

@[simp] theorem Lib.freezeHoming_base (x : AccId) (l : Lib) :
    (l.freezeHoming x).base = l.base := by
  unfold Lib.freezeHoming; simp

@[simp] theorem Lib.postSlots_base (g : Settings) (l : Lib) : (l.postSlots g).base = l.base := by
  unfold Lib.postSlots
  rw [Lib.updateRemove_base]
  apply Lib.foldl_base
  intro l k
  split <;> simp

@[simp] theorem Lib.dropClaimOrder_base (g : Settings) (t : Nat) (l : Lib) :
    (l.dropClaimOrder g t).base = l.base := by
  unfold Lib.dropClaimOrder; (repeat' split) <;> simp

@[simp] theorem Lib.claimRemoved_base (g : Settings) (t : Nat) (l : Lib) :
    (l.claimRemoved g t).base = l.base := by
  unfold Lib.claimRemoved; dsimp only; (repeat' split) <;> simp

@[simp] theorem Lib.outboundRemoved_base (g : Settings) (k : Nat) (label : Option Serial) (l : Lib) :
    (l.outboundRemoved g k label).base = l.base := by
  unfold Lib.outboundRemoved; (repeat' split) <;> simp

@[simp] theorem Lib.claimMoved_base (g : Settings) (t : Nat) (l : Lib) :
    (l.claimMoved g t).base = l.base := by
  unfold Lib.claimMoved; dsimp only; (repeat' split) <;> simp

@[simp] theorem Lib.slotReport_base (g : Settings) (k : Nat) (seen : Reading) (l : Lib) :
    (l.slotReport g k seen).base = l.base := by
  unfold Lib.slotReport; dsimp only; (repeat' split) <;> simp

@[simp] theorem Lib.stopAtStation_base (x : AccId) (l : Lib) :
    (l.stopAtStation x).base = l.base := by
  unfold Lib.stopAtStation; split <;> simp

@[simp] theorem Lib.doorOpened_base (g : Settings) (l : Lib) :
    (l.doorOpened g).base = l.base := by
  unfold Lib.doorOpened; (repeat' split) <;> simp <;> simp [Lib.base, Lib.fixed, Fixed.base]

@[simp] theorem Lib.goOn_base (g : Settings) (x : AccId) (l : Lib) :
    (l.goOn g x).base = l.base := by
  unfold Lib.goOn; split <;> simp

@[simp] theorem Lib.doorClosed_base (g : Settings) (l : Lib) :
    (l.doorClosed g).base = l.base := by
  unfold Lib.doorClosed; (repeat' split) <;> simp <;> simp [Lib.base, Lib.fixed, Fixed.base]

@[simp] theorem Lib.haltAcc_base (x : AccId) (l : Lib) :
    (l.haltAcc x).base = l.base := by
  unfold Lib.haltAcc; split <;> simp

@[simp] theorem Lib.forgetResume_base (x : AccId) (l : Lib) :
    (l.forgetResume x).base = l.base := by
  unfold Lib.forgetResume; split <;> simp

@[simp] theorem Lib.restartQuery_base (g : Settings) (x : AccId) (l : Lib) :
    (l.restartQuery g x).base = l.base := by
  unfold Lib.restartQuery; split <;> simp

@[simp] theorem Lib.interlock_base (g : Settings) (l : Lib) : (l.interlock g).base = l.base := by
  unfold Lib.interlock
  dsimp only
  rw [Lib.updateLock_base]
  refine Eq.trans ((Lib.restartQuery_base g .b _).trans (Lib.restartQuery_base g .a _)) ?_
  refine Eq.trans (Lib.foldl_base (fun l x => l.haltAcc x) (by simp) _ _) ?_
  rw [Lib.forgetResume_base, Lib.forgetResume_base]
  exact (Lib.withdrawStaged_base g .b _).trans (Lib.withdrawStaged_base g .a _)

@[simp] theorem Lib.serviceOpened_base (g : Settings) (l : Lib) :
    (l.serviceOpened g).base = l.base := by
  unfold Lib.serviceOpened; dsimp only; (repeat' split) <;> simp <;> simp [Lib.base, Lib.fixed, Fixed.base]

@[simp] theorem Lib.serviceClosed_base (g : Settings) (l : Lib) :
    (l.serviceClosed g).base = l.base := by
  unfold Lib.serviceClosed; (repeat' split) <;> simp <;> simp [Lib.base, Lib.fixed, Fixed.base]

@[simp] theorem Lib.setPos_base (x : AccId) (c : Nat) (l : Lib) :
    (l.setPos x c).base = l.base := by
  unfold Lib.setPos; simp

@[simp] theorem Lib.setProgress_base (x : AccId) (p : Progress) (l : Lib) :
    (l.setProgress x p).base = l.base := by
  unfold Lib.setProgress; simp

@[simp] theorem Lib.restartTimer_base (g : Settings) (x : AccId) (l : Lib) :
    (l.restartTimer g x).base = l.base := by
  unfold Lib.restartTimer; simp

@[simp] theorem Lib.pickDone_base (g : Settings) (x : AccId) (l : Lib) :
    (l.pickDone g x).base = l.base := by
  unfold Lib.pickDone; simp

@[simp] theorem Lib.finish_base (g : Settings) (t : Option Nat) (c : Code) (l : Lib) :
    (l.finish g t c).base = l.base := by
  unfold Lib.finish; split <;> simp

@[simp] theorem Lib.pickedCell_base (g : Settings) (x : AccId) (o : Order) (n : Nat) (label : Option Serial) (l : Lib) :
    (l.pickedCell g x o n label).base = l.base := by
  unfold Lib.pickedCell; dsimp only; (repeat' split) <;> simp

@[simp] theorem Lib.pickedSlot_base (g : Settings) (x : AccId) (o : Order) (k : Nat) (l : Lib) :
    (l.pickedSlot g x o k).base = l.base := by
  unfold Lib.pickedSlot; split <;> simp

@[simp] theorem Lib.pickedDrive_base (g : Settings) (x : AccId) (o : Order) (d : Nat) (l : Lib) :
    (l.pickedDrive g x o d).base = l.base := by
  unfold Lib.pickedDrive; dsimp only; (repeat' split) <;> simp

@[simp] theorem Lib.pickedReport_base (g : Settings) (x : AccId) (n : Nat) (p : Place) (label : Option Serial) (l : Lib) :
    (l.pickedReport g x n p label).base = l.base := by
  unfold Lib.pickedReport; (repeat' split) <;> simp

@[simp] theorem Lib.emptyCell_base (g : Settings) (x : AccId) (o : Order) (n : Nat) (l : Lib) :
    (l.emptyCell g x o n).base = l.base := by
  unfold Lib.emptyCell; dsimp only; (repeat' split) <;> simp

@[simp] theorem Lib.emptySlotPick_base (g : Settings) (x : AccId) (o : Order) (k : Nat) (l : Lib) :
    (l.emptySlotPick g x o k).base = l.base := by
  unfold Lib.emptySlotPick; split <;> simp

@[simp] theorem Lib.emptyDrive_base (g : Settings) (x : AccId) (o : Order) (d : Nat) (l : Lib) :
    (l.emptyDrive g x o d).base = l.base := by
  unfold Lib.emptyDrive; split <;> simp

@[simp] theorem Lib.pickEmptyReport_base (g : Settings) (x : AccId) (n : Nat) (p : Place) (l : Lib) :
    (l.pickEmptyReport g x n p).base = l.base := by
  unfold Lib.pickEmptyReport; (repeat' split) <;> simp

@[simp] theorem Lib.placedCell_base (g : Settings) (o : Order) (c : Nat) (l : Lib) :
    (l.placedCell g o c).base = l.base := by
  unfold Lib.placedCell; split <;> simp

@[simp] theorem Lib.placedDrive_base (g : Settings) (o : Order) (d : Nat) (l : Lib) :
    (l.placedDrive g o d).base = l.base := by
  unfold Lib.placedDrive; (repeat' split) <;> simp

@[simp] theorem Lib.placedSlot_base (g : Settings) (o : Order) (k : Nat) (l : Lib) :
    (l.placedSlot g o k).base = l.base := by
  unfold Lib.placedSlot; dsimp only; (repeat' split) <;> simp

@[simp] theorem Lib.placedReport_base (g : Settings) (x : AccId) (n : Nat) (p : Place) (l : Lib) :
    (l.placedReport g x n p).base = l.base := by
  unfold Lib.placedReport; (repeat' split) <;> simp

@[simp] theorem Lib.blockedCell_base (g : Settings) (x : AccId) (o : Order) (c : Nat) (l : Lib) :
    (l.blockedCell g x o c).base = l.base := by
  unfold Lib.blockedCell; split <;> simp

@[simp] theorem Lib.blockedDrive_base (g : Settings) (x : AccId) (o : Order) (d : Nat) (l : Lib) :
    (l.blockedDrive g x o d).base = l.base := by
  unfold Lib.blockedDrive; split <;> simp

@[simp] theorem Lib.blockedSlot_base (g : Settings) (o : Order) (k : Nat) (l : Lib) :
    (l.blockedSlot g o k).base = l.base := by
  unfold Lib.blockedSlot; split <;> simp

@[simp] theorem Lib.placeBlockedReport_base (g : Settings) (x : AccId) (n : Nat) (p : Place) (l : Lib) :
    (l.placeBlockedReport g x n p).base = l.base := by
  unfold Lib.placeBlockedReport; (repeat' split) <;> simp

@[simp] theorem Lib.takeIn_base (g : Settings) (n : Nat) (label : Option Serial) (l : Lib) :
    (l.takeIn g n label).base = l.base := by
  unfold Lib.takeIn; (repeat' split) <;> simp

@[simp] theorem Lib.cellFound_base (g : Settings) (n : Nat) (seen : Reading) (l : Lib) :
    (l.cellFound g n seen).base = l.base := by
  unfold Lib.cellFound; (repeat' split) <;> simp

@[simp] theorem Lib.cellSeenReport_base (g : Settings) (x : AccId) (n cell column : Nat) (seen : Reading) (l : Lib) :
    (l.cellSeenReport g x n cell column seen).base = l.base := by
  unfold Lib.cellSeenReport; (repeat' split) <;> simp

@[simp] theorem Lib.auditColumnDone_base (g : Settings) (t : Nat) (l : Lib) :
    (l.auditColumnDone g t).base = l.base := by
  unfold Lib.auditColumnDone; (repeat' split) <;> simp

@[simp] theorem Lib.scanDoneReport_base (g : Settings) (x : AccId) (n column : Nat) (l : Lib) :
    (l.scanDoneReport g x n column).base = l.base := by
  unfold Lib.scanDoneReport; (repeat' split) <;> simp

@[simp] theorem Lib.moveDoneReport_base (g : Settings) (x : AccId) (n column : Nat) (l : Lib) :
    (l.moveDoneReport g x n column).base = l.base := by
  unfold Lib.moveDoneReport; (repeat' split) <;> simp

@[simp] theorem Lib.faultReport_base (g : Settings) (x : AccId) (column code : Nat) (l : Lib) :
    (l.faultReport g x column code).base = l.base := by
  unfold Lib.faultReport; split <;> simp

@[simp] theorem Lib.stepExpired_base (g : Settings) (x : AccId) (l : Lib) :
    (l.stepExpired g x).base = l.base := by
  unfold Lib.stepExpired; (repeat' split) <;> simp

@[simp] theorem Lib.gripperLost_base (g : Settings) (x : AccId) (l : Lib) :
    (l.gripperLost g x).base = l.base := by
  unfold Lib.gripperLost; dsimp only; (repeat' split) <;> simp

theorem Lib.settleGripper_base (g : Settings) (x : AccId) (seen : Reading) (l m : Lib)
    (h : l.settleGripper g x seen = some m) : m.base = l.base := by
  unfold Lib.settleGripper at h
  (repeat' split at h) <;> simp at h <;> subst h <;> simp

@[simp] theorem Lib.restoreReply_base (g : Settings) (x : AccId) (column : Nat) (seen : Reading) (l : Lib) :
    (l.restoreReply g x column seen).base = l.base := by
  unfold Lib.restoreReply
  split
  · rfl
  · next h => simp [Lib.settleGripper_base g x seen _ _ h]

@[simp] theorem Lib.reconcileReply_base (g : Settings) (x : AccId) (column : Nat) (seen : Reading) (l : Lib) :
    (l.reconcileReply g x column seen).base = l.base := by
  unfold Lib.reconcileReply
  split
  · simp
  · next h =>
    dsimp only
    (repeat' split) <;> simp [Lib.settleGripper_base g x seen _ _ h]

@[simp] theorem Lib.resumeOrder_base (g : Settings) (x : AccId) (o : Order) (l : Lib) :
    (l.resumeOrder g x o).base = l.base := by
  unfold Lib.resumeOrder; split <;> simp

@[simp] theorem Lib.resumeReply_base (g : Settings) (x : AccId) (column : Nat) (seen : Reading) (l : Lib) :
    (l.resumeReply g x column seen).base = l.base := by
  unfold Lib.resumeReply; dsimp only; (repeat' split) <;> simp

@[simp] theorem Lib.gripperReport_base (g : Settings) (x : AccId) (n column : Nat) (held : Reading) (l : Lib) :
    (l.gripperReport g x n column held).base = l.base := by
  unfold Lib.gripperReport; (repeat' split) <;> simp

@[simp] theorem Lib.resumeQuery_base (g : Settings) (x : AccId) (l : Lib) :
    (l.resumeQuery g x).base = l.base := by
  unfold Lib.resumeQuery; split <;> simp

@[simp] theorem Lib.faultServing_base (g : Settings) (d : Nat) (c : Code) (l : Lib) :
    (l.faultServing g d c).base = l.base := by
  unfold Lib.faultServing; (repeat' split) <;> simp

@[simp] theorem Lib.failThreading_base (g : Settings) (d code : Nat) (c : Code) (l : Lib) :
    (l.failThreading g d code c).base = l.base := by
  unfold Lib.failThreading; dsimp only; (repeat' split) <;> simp

@[simp] theorem Lib.failRewinding_base (g : Settings) (d code : Nat) (l : Lib) :
    (l.failRewinding g d code).base = l.base := by
  unfold Lib.failRewinding; simp

@[simp] theorem Lib.failMounted_base (g : Settings) (d code : Nat) (l : Lib) :
    (l.failMounted g d code).base = l.base := by
  unfold Lib.failMounted; dsimp only; (repeat' split) <;> simp

@[simp] theorem Lib.failManual_base (g : Settings) (d code : Nat) (l : Lib) :
    (l.failManual g d code).base = l.base := by
  unfold Lib.failManual; dsimp only; (repeat' split) <;> simp

@[simp] theorem Lib.driveFaulted_base (g : Settings) (d code : Nat) (l : Lib) :
    (l.driveFaulted g d code).base = l.base := by
  unfold Lib.driveFaulted; dsimp only; (repeat' split) <;> simp

@[simp] theorem Lib.attentionDone_base (g : Settings) (d : Nat) (toShelf : Bool) (l : Lib) :
    (l.attentionDone g d toShelf).base = l.base := by
  unfold Lib.attentionDone; dsimp only; (repeat' split) <;> simp

@[simp] theorem Lib.unloadStray_base (g : Settings) (d : Nat) (l : Lib) :
    (l.unloadStray g d).base = l.base := by
  unfold Lib.unloadStray; simp

@[simp] theorem Lib.loadedThreading_base (g : Settings) (d : Nat) (l : Lib) :
    (l.loadedThreading g d).base = l.base := by
  unfold Lib.loadedThreading; dsimp only; (repeat' split) <;> simp

@[simp] theorem Lib.loadedManual_base (g : Settings) (d : Nat) (label : Option Serial) (l : Lib) :
    (l.loadedManual g d label).base = l.base := by
  unfold Lib.loadedManual; (repeat' split) <;> simp

@[simp] theorem Lib.loadedReport_base (g : Settings) (d : Nat) (raw : Option Serial) (l : Lib) :
    (l.loadedReport g d raw).base = l.base := by
  unfold Lib.loadedReport; split <;> simp

@[simp] theorem Lib.loadFailedReport_base (g : Settings) (d : Nat) (l : Lib) :
    (l.loadFailedReport g d).base = l.base := by
  unfold Lib.loadFailedReport; split <;> simp

@[simp] theorem Lib.addErrors_base (d errors : Nat) (l : Lib) :
    (l.addErrors d errors).base = l.base := by
  unfold Lib.addErrors; split <;> simp

@[simp] theorem Lib.askHolding_base (d : Nat) (l : Lib) :
    (l.askHolding d).base = l.base := by
  unfold Lib.askHolding; simp

@[simp] theorem Lib.endCleaning_base (g : Settings) (d : Nat) (l : Lib) :
    (l.endCleaning g d).base = l.base := by
  unfold Lib.endCleaning; dsimp only; (repeat' split) <;> simp

@[simp] theorem Lib.dismountDrive_base (g : Settings) (d : Nat) (l : Lib) :
    (l.dismountDrive g d).base = l.base := by
  unfold Lib.dismountDrive; split <;> simp

@[simp] theorem Lib.loadFailedCode_base (d : Nat) (l : Lib) :
    (l.loadFailedCode d).base = l.base := by
  unfold Lib.loadFailedCode; split <;> simp

@[simp] theorem Lib.unloadedReport_base (g : Settings) (d errors : Nat) (l : Lib) :
    (l.unloadedReport g d errors).base = l.base := by
  unfold Lib.unloadedReport; dsimp only; (repeat' split) <;> simp

@[simp] theorem Lib.unloadPressedReport_base (g : Settings) (d : Nat) (l : Lib) :
    (l.unloadPressedReport g d).base = l.base := by
  unfold Lib.unloadPressedReport; dsimp only; (repeat' split) <;> simp

@[simp] theorem Lib.removedRecorded_base (g : Settings) (d : Nat) (s : Serial) (l : Lib) :
    (l.removedRecorded g d s).base = l.base := by
  unfold Lib.removedRecorded; dsimp only; (repeat' split) <;> simp

@[simp] theorem Lib.reelRemovedReport_base (g : Settings) (d : Nat) (l : Lib) :
    (l.reelRemovedReport g d).base = l.base := by
  unfold Lib.reelRemovedReport; (repeat' split) <;> simp

@[simp] theorem Lib.cleanNeededReport_base (d : Nat) (l : Lib) :
    (l.cleanNeededReport d).base = l.base := by
  unfold Lib.cleanNeededReport; split <;> simp

@[simp] theorem Lib.offlineReport_base (g : Settings) (d : Nat) (l : Lib) :
    (l.offlineReport g d).base = l.base := by
  unfold Lib.offlineReport; dsimp only; (repeat' split) <;> simp

@[simp] theorem Lib.onlineReport_base (d : Nat) (l : Lib) :
    (l.onlineReport d).base = l.base := by
  unfold Lib.onlineReport; dsimp only; (repeat' split) <;> simp

@[simp] theorem Lib.strayFound_base (g : Settings) (d : Nat) (loaded : Bool) (l : Lib) :
    (l.strayFound g d loaded).base = l.base := by
  unfold Lib.strayFound; split <;> simp

@[simp] theorem Lib.holdingTaken_base (g : Settings) (d : Nat) (reply : HoldingReply) (l : Lib) :
    (l.holdingTaken g d reply).base = l.base := by
  unfold Lib.holdingTaken; split <;> simp

@[simp] theorem Lib.loseAtDrive_base (g : Settings) (d : Nat) (l : Lib) :
    (l.loseAtDrive g d).base = l.base := by
  unfold Lib.loseAtDrive; dsimp only; (repeat' split) <;> simp

@[simp] theorem Lib.reelFound_base (g : Settings) (d : Nat) (reply : HoldingReply) (s : Serial) (loaded : Bool) (l : Lib) :
    (l.reelFound g d reply s loaded).base = l.base := by
  unfold Lib.reelFound; dsimp only; (repeat' split) <;> simp

@[simp] theorem Lib.holdingReconcile_base (g : Settings) (d : Nat) (reply : HoldingReply) (l : Lib) :
    (l.holdingReconcile g d reply).base = l.base := by
  unfold Lib.holdingReconcile; (repeat' split) <;> simp

@[simp] theorem Lib.holdingReport_base (g : Settings) (d : Nat) (reply : HoldingReply) (l : Lib) :
    (l.holdingReport g d reply).base = l.base := by
  unfold Lib.holdingReport; dsimp only; (repeat' split) <;> simp

@[simp] theorem Lib.threadingExpired_base (g : Settings) (d : Nat) (l : Lib) :
    (l.threadingExpired g d).base = l.base := by
  unfold Lib.threadingExpired; split <;> simp

@[simp] theorem Lib.unloadExpired_base (g : Settings) (d : Nat) (l : Lib) :
    (l.unloadExpired g d).base = l.base := by
  unfold Lib.unloadExpired; split <;> simp

@[simp] theorem Lib.reconcileExpired_base (g : Settings) (d : Nat) (l : Lib) :
    (l.reconcileExpired g d).base = l.base := by
  unfold Lib.reconcileExpired; split <;> simp

@[simp] theorem Lib.freedIfEligible_base (g : Settings) (l was : Lib) (d : Nat) :
    (l.freedIfEligible g was d).base = l.base := by
  unfold Lib.freedIfEligible; split <;> simp

@[simp] theorem Lib.varyOff_base (g : Settings) (d : Nat) (l : Lib) :
    (l.varyOff g d).base = l.base := by
  unfold Lib.varyOff; (repeat' split) <;> simp

@[simp] theorem Lib.varyOn_base (g : Settings) (d : Nat) (l : Lib) :
    (l.varyOn g d).base = l.base := by
  unfold Lib.varyOn; dsimp only; (repeat' split) <;> simp

@[simp] theorem Lib.pathFreed_base (p : Nat) (l : Lib) :
    (l.pathFreed p).base = l.base := by
  unfold Lib.pathFreed; simp

@[simp] theorem Lib.enterFirst_base (g : Settings) (t : Nat) (l : Lib) :
    (l.enterFirst g t).base = l.base := by
  unfold Lib.enterFirst; split <;> simp

@[simp] theorem Lib.admitMount_base (g : Settings) (f : MountBlock) (v : Volume) (l : Lib) :
    (l.admitMount g f v).base = l.base := by
  unfold Lib.admitMount; dsimp only; (repeat' split) <;> simp

theorem Lib.cancel_base (g : Settings) (r : Request) (l m : Lib) (h : l.cancel g r = some m) :
    m.base = l.base := by
  unfold Lib.cancel at h
  dsimp only at h
  (repeat' split at h) <;> simp at h <;> subst h <;> simp

@[simp] theorem Lib.stallExpired_base (g : Settings) (t : Nat) (l : Lib) :
    (l.stallExpired g t).base = l.base := by
  unfold Lib.stallExpired; dsimp only; (repeat' split) <;> simp

@[simp] theorem Lib.updateVolume_base (g : Settings) (s : Serial) (f : UpdateBlock) (l : Lib) :
    (l.updateVolume g s f).base = l.base := by
  unfold Lib.updateVolume; split <;> simp

@[simp] theorem Lib.retire_base (g : Settings) (s : Serial) (l : Lib) :
    (l.retire g s).base = l.base := by
  unfold Lib.retire; simp

@[simp] theorem Lib.noteStep_base (n : Nat) (l : Lib) : (l.noteStep n).base = l.base := rfl

@[simp] theorem Lib.stepPast_base (n : Nat) (l : Lib) :
    (l.stepPast n).base = l.base := by
  unfold Lib.stepPast; (repeat' split) <;> simp

@[simp] theorem Lib.acceptPrompt_base (g : Settings) (x : Nat × Prompt) (l : Lib) :
    (l.acceptPrompt g x).base = l.base := by
  unfold Lib.acceptPrompt; split <;> simp

@[simp] theorem Lib.refusePrompt_base (g : Settings) (x : Nat × Prompt) (l : Lib) :
    (l.refusePrompt g x).base = l.base := by
  unfold Lib.refusePrompt; (repeat' split) <;> simp

@[simp] theorem Lib.donePrompt_base (g : Settings) (x : Nat × Prompt) (l : Lib) :
    (l.donePrompt g x).base = l.base := by
  unfold Lib.donePrompt; split <;> simp

@[simp] theorem Lib.keyAct_base (key : KeyName) (g : Settings) (x : Nat × Prompt) (l : Lib) :
    (l.keyAct key g x).base = l.base := by
  unfold Lib.keyAct; split <;> simp

@[simp] theorem Lib.keyChange_base (key : KeyName) (g : Settings) (n : Nat) (l : Lib) :
    (l.keyChange key g n).base = l.base := by
  unfold Lib.keyChange; (repeat' split) <;> simp

@[simp] theorem Lib.sendAgain_base (l : Lib) :
    (l.sendAgain).base = l.base := by
  unfold Lib.sendAgain; (repeat' split) <;> simp <;> simp [Lib.base, Lib.fixed, Fixed.base]

@[simp] theorem Lib.manualExpired_base (g : Settings) (n : Nat) (l : Lib) :
    (l.manualExpired g n).base = l.base := by
  unfold Lib.manualExpired; (repeat' split) <;> simp

@[simp] theorem Lib.messageExpired_base (n : Nat) (l : Lib) :
    (l.messageExpired n).base = l.base := by
  unfold Lib.messageExpired; (repeat' split) <;> simp

@[simp] theorem Lib.reAnnounced_base (g : Settings) (n : Nat) (l : Lib) :
    (l.reAnnounced g n).base = l.base := by
  unfold Lib.reAnnounced; dsimp only; (repeat' split) <;> simp

@[simp] theorem Lib.addAccount_base (a : Account) (l : Lib) :
    (l.addAccount a).base = l.base := by
  simp [Lib.addAccount, Lib.base, Lib.fixed, Fixed.base]

@[simp] theorem Lib.dropAccount_base (n : Nat) (l : Lib) :
    (l.dropAccount n).base = l.base := by
  simp [Lib.dropAccount, Lib.base, Lib.fixed, Fixed.base]

@[simp] theorem Lib.accrueFrom_base (n : Nat) (t : Clock) (l : Lib) :
    (l.accrueFrom n t).base = l.base := by
  simp [Lib.accrueFrom, Lib.base, Lib.fixed, Fixed.base]

@[simp] theorem Lib.settleMounted_base (old new : Clock) (l : Lib) (r : Request) :
    (Lib.settleMounted old new l r).base = l.base := by
  unfold Lib.settleMounted; split <;> simp

@[simp] theorem Lib.settleClock_base (old new : Clock) (l : Lib) :
    (l.settleClock old new).base = l.base := by
  unfold Lib.settleClock
  exact Lib.foldl_base (fun l r => l.settleMounted old new r) (by simp) _ _

@[simp] theorem Lib.periodExpired_base (g : Settings) (l : Lib) :
    (l.periodExpired g).base = l.base := by
  unfold Lib.periodExpired; (repeat' split) <;> simp <;> simp [Lib.base, Lib.fixed, Fixed.base]

@[simp] theorem Lib.moveDeadlines_base (old new : Clock) (l : Lib) :
    (l.moveDeadlines old new).base = l.base := by
  unfold Lib.moveDeadlines; dsimp only
  (repeat' split) <;> (try rw [Lib.refresh_base]) <;> simp [Lib.base, Lib.fixed, Fixed.base]

@[simp] theorem Lib.timersChanged_base (old new : Settings) (l : Lib) :
    (l.timersChanged old new).base = l.base := by
  unfold Lib.timersChanged; (repeat' split) <;> simp <;> simp [Lib.base, Lib.fixed, Fixed.base]

@[simp] theorem Lib.answers_base (g : Settings) (doorOpen serviceOpen : Bool) (slots : List Reading) (l : Lib) :
    (l.answers g doorOpen serviceOpen slots).base = l.base := by
  unfold Lib.answers; (repeat' split) <;> simp

@[simp] theorem Lib.loseUndefined_base (g : Settings) (l : Lib) (v : Volume) :
    (Lib.loseUndefined g l v).base = l.base := by
  unfold Lib.loseUndefined; (repeat' split) <;> simp

@[simp] theorem Lib.toShelf_base (g : Settings) (s : Serial) (l : Lib) :
    (l.toShelf g s).base = l.base := by
  unfold Lib.toShelf; simp

@[simp] theorem Lib.settleStation_base (g : Settings) (l : Lib) (v : Volume) :
    (Lib.settleStation g l v).base = l.base := by
  unfold Lib.settleStation; (repeat' split) <;> simp

@[simp] theorem Lib.queryDrive_base (g : Settings) (l : Lib) (d : Nat) :
    (Lib.queryDrive g l d).base = l.base := by
  unfold Lib.queryDrive; split <;> simp

@[simp] theorem Lib.clearPrompts_base (test : Prompt → Bool) (l : Lib) :
    (l.clearPrompts test).base = l.base := by
  simp [Lib.clearPrompts, Lib.base, Lib.fixed, Fixed.base]

@[simp] theorem Lib.resetFree_base (g : Settings) (t : Nat) (l : Lib) :
    (l.resetFree g t).base = l.base := by
  unfold Lib.resetFree; dsimp only; (repeat' split) <;> simp

@[simp] theorem Lib.retag_base (old new : Nat) (l : Lib) :
    (l.retag old new).base = l.base := by
  unfold Lib.retag; (repeat' split) <;> simp <;> simp [Lib.base, Lib.fixed, Fixed.base]

@[simp] theorem Lib.convert_base (g : Settings) (r : Request) (l : Lib) :
    (l.convert g r).base = l.base := by
  unfold Lib.convert; (repeat' split) <;> simp

@[simp] theorem Lib.resetRequest_base (g : Settings) (x : List (Nat × Serial) × Lib) (t : Nat) :
    (Lib.resetRequest g x t).2.base = x.2.base := by
  unfold Lib.resetRequest
  (repeat' split) <;> simp

theorem Lib.resetRequests_base (g : Settings) (ts : List Nat) (x : List (Nat × Serial) × Lib) :
    (ts.foldl (fun x t => Lib.resetRequest g x t) x).2.base = x.2.base := by
  induction ts generalizing x with
  | nil => rfl
  | cons t ts ih => rw [List.foldl_cons, ih, Lib.resetRequest_base]

@[simp] theorem Lib.offerQuietly_base (g : Settings) (n : Nat) (l : Lib) :
    (Lib.offerQuietly g n l).base = l.base := by
  induction n generalizing l with
  | zero => rfl
  | succ n ih => unfold Lib.offerQuietly; split <;> simp [ih]

@[simp] theorem Lib.presentAfterReset_base (was tags : List Nat) (l : Lib) :
    (l.presentAfterReset was tags).base = l.base := by
  unfold Lib.presentAfterReset; (repeat' split) <;> simp

@[simp] theorem Lib.removeAfterReset_base (g : Settings) (l was : Lib) :
    (l.removeAfterReset g was).base = l.base := by
  unfold Lib.removeAfterReset; split <;> simp

@[simp] theorem Lib.linkReset_base (g : Settings) (l : Lib) : (l.linkReset g).base = l.base := by
  have hf : ∀ (xs : List (Nat × Serial)) (l : Lib),
      (xs.foldl (fun l y => l.handOver g y.1 y.2) l).base = l.base := by
    intro xs
    induction xs with
    | nil => intro l; rfl
    | cons y ys ih => intro l; rw [List.foldl_cons, ih, Lib.handOver_base]
  simp only [Lib.linkReset, hf, Lib.removeAfterReset_base, Lib.presentAfterReset_base, Lib.offerQuietly_base, Lib.clearPrompts_base,
    Lib.syncAllScratch_base, Lib.resetRequests_base, Lib.clearAttention_base]

end Sys2Proof.Machine
end

