-- ==== Sys2Proof/Laws/Scan.lean ====
section
/-! SUPPORT. What the settling of one slot in a station scan does (R37): the rejections, the claim of the request
that waits, and the IMPORT of a reel that is taken in. -/

namespace Sys2Proof.Machine.Lib

theorem slot_of_place {l m : Lib} (h : m.place = l.place) (k : Nat) : m.slot k = l.slot k := by unfold slot; rw [h]

/-- The slots after one of them has been set. -/
theorem slots_of_set {l m : Lib} {k : Nat} {x : Slot} (h : m.place.slots = l.place.slots.set k x)
    (hk : k < l.place.slots.length) : m.slot k = x ∧ ∀ j, j ≠ k → m.slot j = l.slot j := by
  unfold slot; rw [h]
  exact ⟨by simp [List.getD_eq_getElem?_getD, hk],
    fun j hj => by simp [List.getD_eq_getElem?_getD, Ne.symm hj]⟩

theorem rejectSlot_slots (g : Settings) (k : Nat) (x : Option Serial) (w : Reject) (l : Lib)
    (hk : k < l.place.slots.length) :
    (l.rejectSlot g k x w).slot k = .rejected x w ∧ ∀ j, j ≠ k → (l.rejectSlot g k x w).slot j = l.slot j :=
  slots_of_set (by rw [rejectSlot_place]) hk

/-- The lowest free cell is a cell of the map. -/
theorem freeCell?_lt {l : Lib} {c : Nat} (h : l.freeCell? = some c) : c < l.place.cells.length :=
  (List.findIdx?_eq_some_iff_findIdx_eq.1 h).1

/-! ## A record added -/

theorem find?_insertBy_self {α : Type} (lt : α → α → Bool) (p : α → Bool) (x : α) (xs : List α) (hx : p x = true)
    (h : xs.find? p = none) : (insertBy lt x xs).find? p = some x := by
  induction xs with
  | nil => simp [insertBy, hx]
  | cons y ys ih =>
    have hy : p y = false := by by_contra hh; simp at hh; simp [hh] at h
    have h' : ys.find? p = none := by simpa [hy] using h
    unfold insertBy; split
    · simp [hy, ih h']
    · simp [hx]

/-- The record just added. -/
theorem vol?_addVol_self (l : Lib) (v : Volume) (h : l.vol? v.serial = none) : (l.addVol v).vol? v.serial = some v :=
  find?_insertBy_self _ _ _ _ (by simp) h

/-! ## The claim of the request that waits -/

theorem claimSlot_slots (g : Settings) (k : Nat) (s : Serial) (t : Nat) (l : Lib) (hk : k < l.place.slots.length) :
    (l.claimSlot g k s t).slot k = .pick (some s) t ∧ ∀ j, j ≠ k → (l.claimSlot g k s t).slot j = l.slot j :=
  slots_of_set (by unfold claimSlot enterQueued; simp [takeQueue, updReq]) hk

theorem vol?_claimSlot_self (g : Settings) (k : Nat) (s : Serial) (t : Nat) (l : Lib) :
    (l.claimSlot g k s t).vol? s = (l.vol? s).map fun v => { v with state := .station k } := by
  have hc : (l.claimSlot g k s t).cat = ((l.setSlot g k (.pick (some s) t)).moveVol g s (.station k)).cat := by
    unfold claimSlot enterQueued; simp [takeQueue, updReq]
  have h1 : (l.claimSlot g k s t).vol? s
      = ((l.setSlot g k (.pick (some s) t)).moveVol g s (.station k)).vol? s := by unfold vol?; rw [hc]
  have h2 : (l.setSlot g k (.pick (some s) t)).vol? s = l.vol? s := by unfold vol?; simp
  rw [h1]; unfold moveVol; rw [vol?_changeVol_self _ _ _ _ (by intro v; rfl), h2]

/-- A request that enters QUEUED takes the next queue sequence (R94). -/
theorem req?_enterQueued_self (g : Settings) (t : Nat) (l : Lib) :
    (l.enterQueued g t).req? t = (l.req? t).map fun q =>
      { q with state := .queued, stallLeft := some g.timers.stall, qseq := some (satAdd max32 l.reqs.queueSeq 1) } := by
  unfold enterQueued takeQueue
  rw [req?_setReqState_self, req?_updReq_self _ _ _ (by intro r; rfl), Option.map_map]
  rfl

theorem req?_claimSlot_self (g : Settings) (k : Nat) (s : Serial) (t : Nat) (l : Lib) (r : Request)
    (h : l.req? t = some r) :
    ∃ q, (l.claimSlot g k s t).req? t = some q ∧ q.state = .queued ∧ q.source = some (.slot k) := by
  unfold claimSlot
  rw [req?_enterQueued_self, req?_updReq_self _ _ _ (by intro r; rfl)]
  have e : (clearRequestPrompt g t ((l.setSlot g k (.pick (some s) t)).moveVol g s (.station k))).req? t = l.req? t := by
    unfold req?; rw [(clearRequestPrompt_only _ _ _).reqs, moveVol_reqs, setSlot_reqs]
  rw [e, h]
  exact ⟨_, rfl, rfl, rfl⟩

/-! ## The reel taken in -/

/-- A new internal request with a volume: it is in the table, holds the volume, and touches no place. -/
theorem createInternal_volume (g : Settings) (kind : Kind) (s : Serial) (priority : Nat) (fill : Request → Request)
    (l : Lib) (v : Volume) (hv : l.vol? s = some v) (hh : v.holder = none) :
    let x := l.createInternal g kind (.volume s) priority fill
    x.1 = l.newTag ∧ x.2.place = l.place
      ∧ x.2.reqs.live = l.reqs.live
          ++ [fill (freshRequest g l.newTag .internal kind (.volume s) priority (satAdd max32 l.reqs.arrivals 1))]
      ∧ x.2.vol? s = some { v with holder := some l.newTag } := by
  dsimp only
  refine ⟨rfl, by simp [createInternal, rotate, admitReq, takeHold],
    by simp [createInternal, rotate, admitReq, takeHold], ?_⟩
  have e : ∀ m : Lib, m.cat = l.cat → (takeHold g s l.newTag m).vol? s = some { v with holder := some l.newTag } := by
    intro m hm
    have : m.vol? s = some v := by unfold vol? at hv ⊢; rw [hm, hv]
    unfold takeHold
    rw [vol?_changeVol_self _ _ _ _ (by intro v; rfl), this]; simp [hh]
  exact e _ rfl

/-- A live request enters QUEUED as the request it was. -/
theorem enterQueued_mem (g : Settings) (l : Lib) (r : Request) (h : r ∈ l.reqs.live) :
    { r with state := .queued, stallLeft := some g.timers.stall, qseq := some (satAdd max32 l.reqs.queueSeq 1) }
      ∈ (l.enterQueued g r.tag).reqs.live := by
  have hs : ∃ q, (l.takeQueue r.tag).req? r.tag = some q := by
    refine Option.isSome_iff_exists.1 ?_
    unfold req?; rw [List.find?_isSome]
    exact ⟨{ r with qseq := some (satAdd max32 l.reqs.queueSeq 1) },
      List.mem_map.2 ⟨r, h, by simp⟩, by simp⟩
  obtain ⟨q, hq⟩ := hs
  unfold enterQueued
  rw [setReqState_live g r.tag .queued _ q hq]
  exact List.mem_map.2 ⟨{ r with qseq := some (satAdd max32 l.reqs.queueSeq 1) },
    List.mem_map.2 ⟨r, h, by simp⟩, by simp [ReqState.inList, ReqState.keepsQueue]⟩

/-- The IMPORT of a reel with no holder: the slot is claimed, the cell reserved, the volume in the station (R37). -/
theorem startImport_imports (g : Settings) (k : Nat) (s : Serial) (c : Nat) (l : Lib) (v : Volume)
    (hk : k < l.place.slots.length) (hc : c < l.place.cells.length) (hv : l.vol? s = some v) (hh : v.holder = none) :
    (l.startImport g k (some s) s (some c)).Imports k s c
    ∧ (∀ j, j ≠ k → (l.startImport g k (some s) s (some c)).slot j = l.slot j)
    ∧ ∃ w, (l.startImport g k (some s) s (some c)).vol? s = some w ∧ w.cls = v.cls ∧ w.density = v.density
        ∧ w.ring = v.ring := by
  unfold startImport
  dsimp only
  generalize hm : (l.moveVol g s (.station k)).reserveHome g s c = m
  have hmp : m.place = { l.place with cells := l.place.cells.set c (.awaited s) } := by
    rw [← hm]; simp [reserveHome, moveVol]
  have hmv : m.vol? s = some { v with state := .station k, homeCell := some c } := by
    have : ((l.moveVol g s (.station k)).setCell c (.awaited s)).vol? s = (l.moveVol g s (.station k)).vol? s := by
      unfold vol?; simp
    rw [← hm]; unfold reserveHome
    rw [vol?_changeVol_self _ _ _ _ (by intro v; rfl), this]; unfold moveVol
    rw [vol?_changeVol_self _ _ _ _ (by intro v; rfl), hv]; rfl
  obtain ⟨h1, h2, h3, h4⟩ := createInternal_volume g .imp s 2 (fun r => { r with source := some (.slot k) }) m _ hmv hh
  generalize createInternal g .imp (.volume s) 2 (fun r => { r with source := some (.slot k) }) m = x at *
  obtain ⟨t, a⟩ := x
  dsimp only at h1 h2 h3 h4 ⊢
  subst h1
  generalize hb : a.setSlot g k (.pick (some s) m.newTag) = b
  have hbp : b.place = { m.place with slots := m.place.slots.set k (.pick (some s) m.newTag) } := by
    rw [← hb]; simp [h2]
  have hcat : (b.enterQueued g m.newTag).cat = a.cat := by rw [← hb]; unfold enterQueued; simp [takeQueue, updReq]
  have hpl : (b.enterQueued g m.newTag).place = b.place := by unfold enterQueued; simp [takeQueue, updReq]
  have hvv : (b.enterQueued g m.newTag).vol? s
      = some { v with state := .station k, homeCell := some c, holder := some m.newTag } := by
    unfold vol? at h4 ⊢; rw [hcat]; exact h4
  obtain ⟨hs1, hs2⟩ := slots_of_set (l := l) (m := b.enterQueued g m.newTag) (k := k) (x := .pick (some s) m.newTag)
    (by rw [hpl, hbp, hmp]) hk
  refine ⟨?_, hs2, _, hvv, rfl, rfl, rfl⟩
  have hin := enterQueued_mem g b
    { freshRequest g m.newTag .internal .imp (.volume s) 2 (satAdd max32 m.reqs.arrivals 1) with
      source := some (.slot k) } (by rw [← hb, setSlot_reqs, h3]; simp)
  refine ⟨_, hin, rfl, rfl, rfl, rfl, rfl, rfl, hs1, ?_, _, hvv, rfl, rfl, rfl⟩
  unfold cell; rw [hpl, hbp, hmp]; simp [List.getD_eq_getElem?_getD, hc]

/-- A reel that may be taken in (R37, cases 2 and 3): `l` are the records with its volume in them. -/
theorem importOrWait_settled (g : Settings) (k : Nat) (s : Serial) (m l : Lib) (v : Volume)
    (hk : k < m.place.slots.length) (hp : l.place = m.place) (hv : l.vol? s = some v) (hh : v.holder = none)
    (n : Lib) (hn : m.importOrWait g k s (fun _ => l) = n) :
    (∀ j, j ≠ k → n.slot j = m.slot j) ∧ (m.freeCell? = none → n.slot k = .rejected (some s) .libraryFull)
      ∧ ∀ c, m.freeCell? = some c →
        (m.entryFree = true → n.Imports k s c
          ∧ ∃ w, n.vol? s = some w ∧ w.cls = v.cls ∧ w.density = v.density ∧ w.ring = v.ring)
        ∧ (m.entryFree = false → n = m) := by
  unfold importOrWait at hn
  cases hc : m.freeCell? with
  | none =>
    rw [hc] at hn; dsimp only at hn; subst hn
    obtain ⟨h1, h2⟩ := rejectSlot_slots g k (some s) .libraryFull m hk
    exact ⟨h2, fun _ => h1, by simp⟩
  | some c =>
    rw [hc] at hn; dsimp only at hn
    cases he : m.entryFree with
    | true =>
      rw [he] at hn; simp only [if_true] at hn; subst hn
      obtain ⟨h1, h2, h3⟩ :=
        startImport_imports g k s c l v (by rw [hp]; exact hk) (by rw [hp]; exact freeCell?_lt hc) hv hh
      refine ⟨fun j hj => (h2 j hj).trans (slot_of_place hp j), by simp, ?_⟩
      intro c' hc'; cases hc'
      exact ⟨fun _ => ⟨h1, h3⟩, by simp⟩
    | false =>
      rw [he] at hn; simp only [Bool.false_eq_true, if_false] at hn; subst hn
      exact ⟨fun _ _ => rfl, by simp, fun _ _ => ⟨by simp, fun _ => rfl⟩⟩

/-- The insert waiter is the request that holds the volume and waits for it at the station (R37, case 1). -/
theorem insertWaiter?_eq (m : Lib) (v : Volume) (t : Nat) (hh : v.holder = some t) :
    m.insertWaiter? v = some t
      ↔ ∃ r, m.req? t = some r ∧ r.kind = .mount ∧ r.state = .manual ∧ r.route = some .station := by
  unfold insertWaiter?; rw [hh]; simp only [Option.bind_some]
  cases hq : m.req? t with
  | none => simp
  | some r =>
    have : r.tag = t := by simpa using List.find?_some hq
    simp [this]; tauto

theorem insertWaiter?_none (m : Lib) (v : Volume) (t : Nat) (hh : v.holder = some t) (h : m.insertWaiter? v ≠ some t) :
    m.insertWaiter? v = none := by
  unfold insertWaiter? at *; rw [hh] at *; simp only [Option.bind_some] at *
  cases hq : m.req? t with
  | none => rfl
  | some r =>
    have : r.tag = t := by simpa using List.find?_some hq
    rw [hq] at h; dsimp only at h ⊢
    split at h
    · exact absurd (by rw [this]) h
    · next hw => rw [if_neg hw]

/-- The settling of one slot is that of the table of R37. -/
theorem settleSlot_settled (g : Settings) (m : Lib) (k : Nat) (hk : k < m.place.slots.length) :
    m.SlotSettled (m.settleSlot g k) k := by
  have hrej := fun x w => rejectSlot_slots g k x w m hk
  unfold SlotSettled
  generalize hn : m.settleSlot g k = n
  unfold settleSlot at hn
  cases hs : m.slot k with
  | inbound x =>
    rw [hs] at hn
    cases x with
    | none => dsimp only at hn; subst hn; exact ⟨(hrej _ _).2, by simp, fun _ => (hrej _ _).1, by simp⟩
    | some s =>
      dsimp only at hn
      cases hv : m.vol? s with
      | none =>
        rw [hv] at hn; dsimp only at hn
        have himp := importOrWait_settled g k s m (m.addVol (m.autoVolume s .shelf none)) _ hk rfl
          (vol?_addVol_self m (m.autoVolume s .shelf none) hv) rfl n
        cases ha : m.store.lib.autoEnter with
        | false =>
          rw [ha] at hn; simp only [Bool.false_eq_true, if_false] at hn; subst hn
          exact ⟨(hrej _ _).2, by simp, by simp, by intro s' h; cases h; simp [hv, hrej]⟩
        | true =>
          rw [ha] at hn; simp only [if_true] at hn
          by_cases hroom : m.cat.vols.length < 4096
          · have : m.catalogueRoom = true := decide_eq_true hroom
            rw [this] at hn; simp only [if_true] at hn
            have himp := himp hn
            refine ⟨himp.1, by simp, by simp, ?_⟩
            intro s' h; cases h
            refine ⟨by simp [hv], fun _ => ⟨by simp, fun _ h => absurd h (by omega), fun _ _ => ⟨⟨himp.2.1, ?_⟩, ?_⟩⟩⟩
            · exact fun c hc => ⟨fun he => ((himp.2.2 c hc).1 he).1, (himp.2.2 c hc).2⟩
            · exact fun c hc he => ((himp.2.2 c hc).1 he).2
          · have : m.catalogueRoom = false := by
              exact decide_eq_false hroom
            rw [this] at hn; simp only [Bool.false_eq_true, if_false] at hn; subst hn
            refine ⟨(hrej _ _).2, by simp, by simp, ?_⟩
            intro s' h; cases h
            exact ⟨by simp [hv], fun _ => ⟨by simp, fun _ _ => (hrej _ _).1, fun _ h => absurd h hroom⟩⟩
      | some v =>
        rw [hv] at hn; dsimp only at hn
        by_cases hst : v.state = .shelf
        · rw [if_pos hst] at hn
          cases hh : v.holder with
          | none =>
            rw [hh] at hn; dsimp only at hn
            have himp := importOrWait_settled g k s m m v hk rfl hv hh n hn
            refine ⟨himp.1, by simp, by simp, ?_⟩
            intro s' h; cases h
            refine ⟨?_, by simp [hv]⟩
            intro v' hv'; rw [hv] at hv'; cases hv'
            exact ⟨fun h => absurd hst h, fun _ _ => ⟨himp.2.1, fun c hc =>
              ⟨fun he => ((himp.2.2 c hc).1 he).1, (himp.2.2 c hc).2⟩⟩, by simp [hh]⟩
          | some t =>
            rw [hh] at hn; dsimp only at hn
            have hw := insertWaiter?_eq m v t hh
            by_cases hwt : m.insertWaiter? v = some t
            · rw [hwt] at hn; dsimp only at hn; subst hn
              obtain ⟨h1, h2⟩ := claimSlot_slots g k s t m hk
              refine ⟨h2, by simp, by simp, ?_⟩
              intro s' h; cases h
              refine ⟨?_, by simp [hv]⟩
              intro v' hv'; rw [hv] at hv'; cases hv'
              refine ⟨fun h => absurd hst h, by simp [hh], ?_⟩
              intro t' _ ht'; rw [hh] at ht'; cases ht'
              refine ⟨fun h => absurd (hw.1 hwt) h, ?_⟩
              rintro ⟨r, hr, -⟩
              exact ⟨h1, req?_claimSlot_self g k s t m r hr, { v with state := .station k },
                by rw [vol?_claimSlot_self, hv]; rfl, rfl, hh⟩
            · rw [insertWaiter?_none m v t hh hwt] at hn; dsimp only at hn; subst hn
              refine ⟨(hrej _ _).2, by simp, by simp, ?_⟩
              intro s' h; cases h
              refine ⟨?_, by simp [hv]⟩
              intro v' hv'; rw [hv] at hv'; cases hv'
              refine ⟨fun h => absurd hst h, by simp [hh], ?_⟩
              intro t' _ ht'; rw [hh] at ht'; cases ht'
              exact ⟨fun _ => (hrej _ _).1, fun h => absurd (hw.2 h) hwt⟩
        · rw [if_neg hst] at hn; subst hn
          refine ⟨(hrej _ _).2, by simp, by simp, ?_⟩
          intro s' h; cases h
          refine ⟨?_, by simp [hv]⟩
          intro v' hv'; rw [hv] at hv'; cases hv'
          exact ⟨fun _ => (hrej _ _).1, fun h => absurd h hst, fun _ h => absurd h hst⟩
  | _ => rw [hs] at hn; dsimp only at hn; subst hn; simp

end Sys2Proof.Machine.Lib
end

