-- ==== Sys2Proof/Laws/Settle.lean ====
section
/-! SUPPORT. What settling a step comes to where the dispatcher can stage nothing (the interlock flag is set,
R95, R96), and where one source has been raised. -/

namespace Sys2Proof.Machine.Lib

/-! ## The dispatcher under the interlock -/

theorem dispatchable_interlock (g : Settings) (l : Lib) (h : l.rail.interlock = true) (x : AccId) (r : Request) :
    l.dispatchable g x r = false := by simp [dispatchable, mayTake, h]

theorem tryJob_interlock (g : Settings) (l : Lib) (h : l.rail.interlock = true) (t : Nat) : l.tryJob g t = l := by
  unfold tryJob; split
  · simp [chooseAccessor, dispatchable_interlock g l h]
  · rfl

theorem passes_interlock (g : Settings) (n : Nat) (l : Lib) (h : l.rail.interlock = true) : l.passes g n = l := by
  have hp : l.pass g = l := by
    unfold pass
    generalize l.jobs.map Request.tag = xs
    induction xs with
    | nil => rfl
    | cons x xs ih => rw [List.foldl_cons, tryJob_interlock g l h, ih]
  cases n with
  | zero => rfl
  | succ n => unfold passes; simp [hp]

theorem displace_interlock (g : Settings) (l : Lib) (h : l.rail.interlock = true) : l.displace g = none := by
  have hd : ∀ r, l.displaceable g r = [] := by
    intro r
    unfold displaceable
    simp only [dispatchable_interlock g l h, Bool.and_false, Bool.false_eq_true, if_false]
    cases ha : l.stagedJob? .a <;> cases hb : l.stagedJob? .b <;> simp [ha, hb]
  have hf : l.jobs.find? (fun r => (l.chooseAccessor g r).isNone && !(l.displaceable g r).isEmpty) = none := by
    rw [List.find?_eq_none]; intro r _; simp [hd]
  unfold displace; rw [hf]

/-- With the interlock flag set the dispatcher stages nothing (R96). -/
theorem dispatch_interlock (g : Settings) (n : Nat) (l : Lib) (h : l.rail.interlock = true) :
    l.dispatch g n = l := by
  cases n with
  | zero => rfl
  | succ n => unfold dispatch; simp [passes_interlock g _ l h, displace_interlock g l h]

/-! ## Settling -/

/-- Nothing is left to be done but the actions of the sources raised, and perhaps a run of the dispatcher. -/
def onlyWake (n : Notes) : Prop := n.entryFreed = false ∧ n.placeFreed = false ∧ n.offers = []

theorem quiesce_interlock (g : Settings) (n : Nat) (l : Lib) (h : l.rail.interlock = true)
    (hn : onlyWake l.notes) : l.quiesce g (n + 2) = { l with notes := { l.notes with wake := false } } := by
  obtain ⟨h1, h2, h3⟩ := hn
  cases hw : l.notes.wake with
  | false =>
    unfold quiesce
    simp only [quiet, h1, h2, h3, hw, List.isEmpty_nil, Bool.not_false, Bool.and_self, if_true]
    have : ({ l.notes with wake := false } : Notes) = l.notes := by rw [← hw]
    exact (congrArg (fun n => ({ l with notes := n } : Lib)) this).symm.trans (by simp only [h1, h2, h3])
  | true =>
    have h4 : l.settleOne g = { l with notes := { l.notes with wake := false } } := by
      unfold settleOne
      simp only [h1, h2, h3, Bool.false_eq_true, if_false]
      rw [dispatch_interlock g _ l h]
      simp only [h1, h2, h3]
    unfold quiesce
    simp only [quiet, h1, h2, h3, hw, List.isEmpty_nil, Bool.not_false, Bool.and_self, Bool.not_true,
      Bool.and_false, Bool.false_eq_true, if_false]
    rw [h4]; unfold quiesce
    simp only [quiet, h1, h2, h3, List.isEmpty_nil, Bool.not_false, Bool.and_self, if_true]

/-- Under the interlock, records with a run of the dispatcher left to do are settled as they stand. -/
theorem settle_interlock (g : Settings) (l : Lib) (h : l.rail.interlock = true) (hn : onlyWake l.notes)
    (hr : l.notes.raised = []) : l.settle g = { l with notes := .none } := by
  unfold settle rounds
  rw [quiesce_interlock g 62 l h hn]
  simp only [hr, bySource, sortBy]

/-- Under the interlock, one source raised: its action is made, and what it leaves is settled as it stands. -/
theorem settle_interlock_raised (g : Settings) (l : Lib) (r : Raising) (h : l.rail.interlock = true)
    (hn : onlyWake l.notes) (hr : l.notes.raised = [r]) (m : Lib)
    (hm : act g { l with notes := .none } r = m) (hi : m.rail.interlock = true) (hw : onlyWake m.notes)
    (hq : m.notes.raised = []) : l.settle g = { m with notes := .none } := by
  have e : ({ l with notes := { l.notes with wake := false, raised := [] } } : Lib) = { l with notes := .none } := by
    obtain ⟨h1, h2, h3⟩ := hn
    have : ({ l.notes with wake := false, raised := [] } : Notes) = .none := by
      cases hh : l.notes; simp_all [Notes.none]
    rw [this]
  unfold settle rounds
  rw [quiesce_interlock g 62 l h hn]
  simp only [hr, bySource, sortBy, insertBy, List.foldl_cons, List.foldl_nil]
  rw [e, hm]
  unfold rounds
  rw [quiesce_interlock g 62 m hi hw]
  simp only [hq, bySource, sortBy]

/-- One source raised with nothing else to do, whose action leaves nothing to do. -/
theorem settle_raised (g : Settings) (l : Lib) (r : Raising) (hl : l.notes = { Notes.none with raised := [r] })
    (m : Lib) (hm : act g { l with notes := .none } r = m) (hq : m.notes = .none) : l.settle g = m := by
  have e : l.quiesce g 64 = l := by unfold quiesce; simp [hl, quiet, Notes.none]
  have e2 : m.quiesce g 64 = m := by unfold quiesce; simp [hq, quiet, Notes.none]
  unfold settle rounds
  rw [e]
  simp only [hl, bySource, sortBy, insertBy, List.foldl_cons, List.foldl_nil]
  have e3 : ({ l with notes := { Notes.none with raised := [] } } : Lib) = { l with notes := .none } := rfl
  rw [e3, hm]
  unfold rounds
  rw [e2]
  simp only [hq, bySource]
  exact congrArg (fun n => ({ m with notes := n } : Lib)) hq.symm

/-! ## A posting -/

/-- A posting fills its slot, and the other slots stand (R126). -/
theorem postAt_slot (g : Settings) (k : Nat) (d : Draft) (l : Lib) (hk : k < l.prompts.slots.length) :
    (∃ a, (l.postAt g k d).prompts.slots.getD k none = some { newPrompt g d l.posting with announced := a })
    ∧ ∀ j, j ≠ k → (l.postAt g k d).prompts.slots.getD j none = l.prompts.slots.getD j none := by
  have shown : ∀ force, (∃ a, (((l.fillSlot g k d).display (k, newPrompt g d l.posting) force).prompts.slots.getD k none)
        = some { newPrompt g d l.posting with announced := a })
      ∧ ∀ j, j ≠ k → ((l.fillSlot g k d).display (k, newPrompt g d l.posting) force).prompts.slots.getD j none
        = l.prompts.slots.getD j none := by
    intro force
    exact ⟨⟨true, by simp [display, send, setPrompt, fillSlot, hk, List.getD_eq_getElem?_getD]⟩,
      fun j hj => by simp [display, send, setPrompt, fillSlot, List.getD_eq_getElem?_getD, Ne.symm hj]⟩
  unfold postAt; dsimp only
  split
  · exact shown false
  · split
    · exact shown false
    · exact ⟨⟨false, by simp [setPrompt, fillSlot, newPrompt, hk, List.getD_eq_getElem?_getD]⟩,
        fun j hj => by simp [setPrompt, fillSlot, List.getD_eq_getElem?_getD, Ne.symm hj]⟩

end Sys2Proof.Machine.Lib
end

