-- ==== Sys2Proof/Tests/Slice0.lean ====
section
/-! SUPPORT. Tests: an ill-formed command for each check of WellFormed; small steps on a small library; and for
every statement with hypotheses a state and operands that meet them, clause by clause, at the ends of its
ranges. -/

namespace Sys2Proof.Tests
open Sys2Proof.Machine

/-! ## A small library -/

/-- A serial of one letter and a digit. -/
def serial (letter digit : Byte) : Serial := ⟨letter, digit, 0x20, 0x20, 0x20, 0x20⟩

def serialA : Serial := serial 0x41 0x31
def serialB : Serial := serial 0x42 0x31
def serialC : Serial := serial 0x43 0x31
def serialK : Serial := serial 0x4B 0x31
def serialZ : Serial := serial 0x5A 0x31

def volume (s : Serial) (cls : VolClass) (st : VolState) (home : Option Nat) : Volume :=
  { serial := s, cls := cls, state := st, homeCell := home, density := 1, ring := true, mounts := 0, errors := 0
    lastMount := none, holder := none }

/-- A private volume at home, one on the shelf, a scratch volume and a cleaner. -/
def volA : Volume := volume serialA (.priv 7 0) .home (some 0)
def volB : Volume := volume serialB (.priv 7 0) .shelf none
def volC : Volume := volume serialC .scratch .home (some 1)
def volK : Volume := volume serialK (.cleaner 5) .home (some 2)

def account7 : Account :=
  { number := 7, suspended := false, limit := 2, quota := none, mounts := 0, scratchMounts := 0, driveSeconds := 0
    manual := 0, refusals := 0, overflow := false, stamp := 3, periodStart := ⟨0, 0⟩, lastRead := none }

def driveDef (kind : DriveKind) : DriveDef :=
  { kind := kind, densities := [1], paths := [0, 1], threshold := 100, sinceClean := 0, lifeMounts := 0
    lifeSeconds := 0, confirmed := true }

def idleDrive (kind : DriveKind) : Drive :=
  { Drive.powerOn (some (driveDef kind)) with state := .idle, idleSince := some ⟨0, 0⟩ }

/-- A READY library of four columns of two cells, with an AUTOMATED drive 0, a MANUAL drive 1, and account 7. -/
def lib : Lib :=
  { Lib.blank with
    store :=
      { mark := true, checked := true, pendingDef := none
        lib := { columns := 4, perColumn := 2, stationColumn := 3, autoEnter := true, autoDensity := 1
                 fullStart := false } }
    cat := { vols := [volA, volB, volC, volK], scratch := [serialC], low := true }
    place :=
      { PlaceUnit.powerOn
          ([.filled serialA, .filled serialC, .filled serialK, .foreign, .disabled] ++ List.replicate 3 (.empty none))
        with doorOpen := false }
    drives := [idleDrive (.automated 2), idleDrive .manual] ++ List.replicate 14 (Drive.powerOn none)
    rail := Rail.powerOn 3
    acct := { accounts := [account7], periodLeft := 86400 }
    start := { StartUp.powerOn with state := .ready, phase := .audit, limit := .stopped } }

def state (l : Lib) : State := { State.reset with lib := l }

/-- The small library in READY, and in the other library states. -/
def ready : State := state lib
def inState (st : LibState) : State := state { lib with start := { lib.start with state := st } }

/-- The small library with a drive, a cell, a slot, an accessor or a prompt changed. -/
def withDrive (d : Nat) (f : Drive → Drive) : State := state (lib.updDrive d f)
def withSlot (k : Nat) (x : Slot) : State :=
  state { lib with place := { lib.place with slots := lib.place.slots.set k x } }
def withAcc (f : Accessor → Accessor) : State := state (lib.updAcc .a f)
def withPrompt (k : Nat) (p : Prompt) : State := state (lib.setPrompt k (some p))

/-- A Mount of the volume A by account 7, and the request it becomes. -/
def mountA : MountBlock :=
  { tag := 32767, serial := serialA, path := 0, account := 7, priority := 3, access := 2, manualAllowed := 0 }

def request (tag : Nat) (kind : Kind) (st : ReqState) (cargo : Cargo) : Request :=
  { Lib.freshRequest (Settings.powerOn 0) tag .link kind cargo 1 1 with state := st }

def withReq (r : Request) : State := state { lib with reqs := { lib.reqs with live := [r] } }

def prompt (kind : PromptKind) (isRequest : Bool) (subject : PromptSubject) : Prompt :=
  { posting := 1, kind := kind, isRequest := isRequest, subject := subject, detail := 0, text := [], mode := .once
    announced := true, posted := ⟨0, 0⟩, deadline := none, deadlineLeft := none, reannounceLeft := none
    wrongVolume := false, answer := none }

/-- The small library with its request table full of internal work. -/
def fullTable (l : Lib) : Lib :=
  { l with reqs := { l.reqs with
      live := List.replicate 48 { request 40000 .audit .queued .none with origin := .internal } } }

/-- The small library under the interlock, with a source linked to an action. -/
def linked (source : Nat) (a : Action) (f : Lib → Lib) : State :=
  let s := state (f { lib with rail := { lib.rail with interlock := true } })
  { s with set := { s.set with links := s.set.links.set (source - 1) a } }

def change (value : Nat) : Change := ⟨1, value⟩
def unchanged : Change := ⟨0, 0⟩

/-! ## WellFormed: a term for each check, which the check refuses -/

theorem test_wf_powerOn_unit : (Instr.powerOn 8 true true true (List.replicate 8 .empty)).wf = false := by decide
theorem test_wf_powerOn_slots : (Instr.powerOn 7 true true true []).wf = false := by decide
theorem test_wf_invalidCommand_range : (Instr.invalidCommand 256).wf = false := by decide
theorem test_wf_invalidCommand_known : (Instr.invalidCommand 0x40).wf = false := by decide
theorem test_wf_mask : (Instr.setAttentionMask 256).wf = false := by decide
theorem test_wf_tag : [Instr.cancel 65536, .releaseRequest 65536, .dismount 65536, .queryRequest 65536].map Instr.wf
    = List.replicate 4 false := by decide
theorem test_wf_oneByte : [Instr.confirmDrive 256, .queryDrive 256, .queryPrompt 256, .restoreAccessor 256].map Instr.wf
    = List.replicate 4 false := by decide
theorem test_wf_twoBytes : [Instr.varyDrive 256 0, .varyDrive 0 256, .varyPath 256 0, .varyPath 0 256, .setLink 256 0,
    .setLink 0 256].map Instr.wf = List.replicate 6 false := by decide
theorem test_wf_withdraw : [Instr.withdrawMessage 256 0, .withdrawMessage 0 65536].map Instr.wf = [false, false] := by
  decide
theorem test_wf_account : [Instr.suspendAccount 65536, .resumeAccount 65536, .closeAccount 65536, .readAccount 65536].map
    Instr.wf = List.replicate 4 false := by decide
theorem test_wf_mount : [Instr.mount { mountA with tag := 65536 }, .mount { mountA with path := 256 },
    .mount { mountA with account := 65536 }, .mount { mountA with priority := 256 },
    .mount { mountA with access := 256 }, .mount { mountA with manualAllowed := 256 }].map Instr.wf
    = List.replicate 6 false := by decide

def scratchBlock : ScratchBlock := { tag := 1, density := 1, path := 1, account := 7, priority := 0, expiryDays := 9999 }

theorem test_wf_scratch : [Instr.mountScratch { scratchBlock with tag := 65536 },
    .mountScratch { scratchBlock with density := 256 }, .mountScratch { scratchBlock with path := 256 },
    .mountScratch { scratchBlock with account := 65536 }, .mountScratch { scratchBlock with priority := 256 },
    .mountScratch { scratchBlock with expiryDays := 65536 }].map Instr.wf = List.replicate 6 false := by decide
theorem test_wf_work : [Instr.eject 65536 serialA 0, .eject 1 serialA 256, .cleanDrive 65536 0 0, .cleanDrive 1 256 0,
    .cleanDrive 1 0 256, .audit 65536 0 0 0, .audit 1 256 0 0, .audit 1 0 256 0, .audit 1 0 0 256].map Instr.wf
    = List.replicate 9 false := by decide

def enterBlock : EnterBlock :=
  { serial := serialZ, classCode := 1, owner := 7, density := 3, ring := 1, expiry := 65535, uses := 0 }

theorem test_wf_enter : [Instr.enterVolume { enterBlock with classCode := 256 },
    .enterVolume { enterBlock with owner := 65536 }, .enterVolume { enterBlock with density := 256 },
    .enterVolume { enterBlock with ring := 256 }, .enterVolume { enterBlock with expiry := 65536 },
    .enterVolume { enterBlock with uses := 256 }].map Instr.wf = List.replicate 6 false := by decide

def updateBlock : UpdateBlock :=
  { owner := unchanged, expiry := change 65535, ring := unchanged, uses := unchanged, density := unchanged }

theorem test_wf_update : [Instr.updateVolume serialA { updateBlock with owner := ⟨2, 0⟩ },
    .updateVolume serialA { updateBlock with expiry := ⟨1, 65536⟩ },
    .updateVolume serialA { updateBlock with ring := ⟨1, 256⟩ }, .updateVolume serialA { updateBlock with uses := ⟨1, 256⟩ },
    .updateVolume serialA { updateBlock with density := ⟨1, 256⟩ }].map Instr.wf = List.replicate 5 false := by decide
theorem test_wf_release : (Instr.releaseToScratch serialA 256).wf = false := by decide
theorem test_wf_lists : [Instr.listVolumes serialA 256 0 0, .listVolumes serialA 0 256 0, .listVolumes serialA 0 0 65536,
    .listRequests 256 0, .listRequests 0 4294967296].map Instr.wf = List.replicate 5 false := by decide
theorem test_wf_openAccount : [Instr.openAccount 65536 0 0, .openAccount 1 256 0, .openAccount 1 0 65536,
    .updateAccount 65536 0 0, .closePeriod 65536 0, .closePeriod 1 65536].map Instr.wf = List.replicate 6 false := by
  decide
theorem test_wf_setCell : [Instr.setCell 65536 0, .setCell 0 256].map Instr.wf = [false, false] := by decide
theorem test_wf_setClock : [Instr.setClock 65536 0, .setClock 0 16777216].map Instr.wf = [false, false] := by decide

def timersBlock : TimersBlock :=
  { step := change 600, threading := change 30, unload := change 900, manual := change 60, reannounce := change 10
    stall := change 7200, period := change 604800, threshold := change 4096 }

theorem test_wf_timers : [Instr.setTimers { timersBlock with step := ⟨2, 30⟩ },
    .setTimers { timersBlock with threading := change 65536 }, .setTimers { timersBlock with unload := change 65536 },
    .setTimers { timersBlock with manual := change 65536 }, .setTimers { timersBlock with reannounce := change 65536 },
    .setTimers { timersBlock with stall := change 65536 }, .setTimers { timersBlock with period := change 16777216 },
    .setTimers { timersBlock with threshold := change 65536 }].map Instr.wf = List.replicate 8 false := by decide

def libraryBlock : LibraryBlock :=
  { columns := 48, perColumn := 64, stationColumn := 47, autoEnter := 1, autoDensity := 3, startMode := 2
    disabled := [0, 3071] }

theorem test_wf_library : [Instr.defineLibrary { libraryBlock with columns := 256 },
    .defineLibrary { libraryBlock with perColumn := 256 }, .defineLibrary { libraryBlock with stationColumn := 256 },
    .defineLibrary { libraryBlock with autoEnter := 256 }, .defineLibrary { libraryBlock with autoDensity := 256 },
    .defineLibrary { libraryBlock with startMode := 256 },
    .defineLibrary { libraryBlock with disabled := List.replicate 256 0 },
    .defineLibrary { libraryBlock with disabled := [65536] }].map Instr.wf = List.replicate 8 false := by
  decide +kernel

def driveBlock : DriveBlock :=
  { drive := 15, kind := 1, column := 3, density1 := 1, density2 := 0, density3 := 1, pathCount := 2, path1 := 7
    path2 := 0, path3 := 0, path4 := 0, threshold := 999, resetCleaning := 1 }

theorem test_wf_drive : [Instr.defineDrive { driveBlock with drive := 256 }, .defineDrive { driveBlock with kind := 256 },
    .defineDrive { driveBlock with column := 256 }, .defineDrive { driveBlock with density1 := 256 },
    .defineDrive { driveBlock with density2 := 256 }, .defineDrive { driveBlock with density3 := 256 },
    .defineDrive { driveBlock with pathCount := 256 }, .defineDrive { driveBlock with path1 := 256 },
    .defineDrive { driveBlock with path2 := 256 }, .defineDrive { driveBlock with path3 := 256 },
    .defineDrive { driveBlock with path4 := 256 }, .defineDrive { driveBlock with threshold := 65536 },
    .defineDrive { driveBlock with resetCleaning := 256 }].map Instr.wf = List.replicate 13 false := by decide

def messageBlock : MessageBlock := { length := 40, text := List.replicate 40 0x41, mode := 2, deadline := 7200 }

theorem test_wf_message : [Instr.postMessage { messageBlock with length := 256 },
    .postMessage { messageBlock with text := [] }, .postMessage { messageBlock with mode := 256 },
    .postMessage { messageBlock with deadline := 65536 }].map Instr.wf = List.replicate 4 false := by decide
theorem test_wf_limits : [Instr.reconcileQueryExpiry 16, .threadingLimitExpiry 16, .unloadLimitExpiry 16,
    .queueStallExpiry 65536, .manualDeadlineExpiry 65536, .hostMessageDeadlineExpiry 65536,
    .reAnnounceExpiry 65536].map Instr.wf = List.replicate 7 false := by decide
theorem test_wf_keys : [Instr.keyNext 65536, .keyAccept 65536, .keyRefuse 65536, .keyDone 65536].map Instr.wf
    = List.replicate 4 false := by decide
theorem test_wf_places : [Instr.picked .a 0 (.cell 0) none, .picked .a 256 (.cell 0) none, .picked .a 1 (.cell 3072) none,
    .pickEmpty .a 1 (.slot 8), .placed .a 1 (.drive 16), .placeBlocked .a 0 (.cell 0)].map Instr.wf
    = List.replicate 6 false := by decide
theorem test_wf_scans : [Instr.cellSeen .a 0 0 0 .empty, .cellSeen .a 1 3072 0 .empty, .cellSeen .a 1 0 48 .empty,
    .scanDone .a 0 0, .scanDone .a 1 48, .moveDone .b 1 48, .gripper .b 256 0 .empty].map Instr.wf
    = List.replicate 7 false := by decide
theorem test_wf_fault : [Instr.accessorFaultReport .a 256 0 1, .accessorFaultReport .a 0 48 1,
    .accessorFaultReport .a 0 0 0, .accessorFaultReport .a 0 0 256].map Instr.wf = List.replicate 4 false := by decide
theorem test_wf_driveReports : [Instr.loadedReady 16 none, .loadFailed 16, .unloaded 16 0, .unloaded 0 256,
    .unloadPressed 16, .reelRemoved 16, .cleanNeeded 16, .driveFaultReport 16 1, .driveFaultReport 0 0,
    .driveFaultReport 0 256, .online 16, .offline 16, .holding 16 .nothing].map Instr.wf = List.replicate 13 false := by
  decide
theorem test_wf_slot : (Instr.slot 8 .empty).wf = false := by decide
theorem test_wf_accepts : [Instr.powerOn 7 true true true (List.replicate 8 .empty), .invalidCommand 255, .mount mountA,
    .mountScratch scratchBlock, .enterVolume enterBlock, .updateVolume serialA updateBlock, .setTimers timersBlock,
    .defineLibrary libraryBlock, .defineDrive driveBlock, .postMessage messageBlock, .slot 7 .empty,
    .picked .b 255 (.cell 3071) none, .accessorFaultReport .b 255 47 255].map Instr.wf = List.replicate 13 true := by
  decide

/-! ## Steps -/

/-- The state a command leaves. -/
def after (c : Instr) (s : State) : State :=
  match exec c s with
  | .next t => t
  | _ => s

/-- A record memory whose check word disagrees makes the library UNFORMATTED; a good one makes it STARTING. -/
theorem test_powerOn :
    (after (.powerOn 5 false false false (List.replicate 8 .empty)) ready).lib.start.state = .unformatted
    ∧ (after (.powerOn 5 true false false (List.replicate 8 .empty)) ready).lib.start.state = .starting := by
  decide +kernel

/-- A Mount in READY is staged and becomes the order of accessor A: ORDER 1 goes out. -/
theorem test_mount_sends_order :
    (after (.mount mountA) ready).lib.out
      = [.order .a 1 (.transfer (.cell 0) (.drive 0) (some serialA))] := by decide +kernel

/-- The refused Mount of chapter 10's example: SUSPENDED account, sense 31h with the account. -/
theorem test_mount_suspended :
    (after (.mount mountA) (after (.suspendAccount 7) ready)).port.sense = some ⟨.accountSuspended, .account 7⟩ := by
  decide +kernel

/-- The block of Test Ready, byte by byte. -/
theorem test_handshake_testReady :
    (after (.byteHandshake 0) { ready with port := { Port.powerOn with
      conn := .command, req := true, block := [0, 0, 0, 0, 0] } }).port.last = some (.good []) := by decide +kernel

/-- A block with a reserved byte that is not zero is refused. -/
theorem test_handshake_reserved :
    (after (.byteHandshake 1) { ready with port := { Port.powerOn with
      conn := .command, req := true, block := [0, 0, 0, 0, 0] } }).port.sense = some ⟨.invalidField, .none⟩ := by
  decide +kernel

/-- Shelf reel in slot 7: DOOR_CLOSED scans the station by its default link and makes an IMPORT. -/
theorem test_doorClosed_scans :
    (after .doorClosed (state { lib with place := { lib.place with
      doorOpen := true, slots := lib.place.slots.set 7 (.inbound (some serialB)) } })).lib.reqs.live.map Request.kind
      = [.imp] := by decide +kernel

/-- Define Drive counts a drive as freed only where it gains a mount it can serve (R45). -/
theorem test_newlyEligible :
    let paths (ps : List Nat) : Lib := lib.updDrive 1 fun v => { v with defn := v.defn.map fun x => { x with paths := ps } }
    let gains (l : Lib) : Bool := l.newlyEligible ready.set lib 1
    gains lib = false ∧ gains (paths [0]) = false ∧ gains (paths [0, 1, 7]) = true := by decide

/-- An order that touches the station and is set aside still touches it, until it is withdrawn (R105, R212). -/
theorem test_setAside_touches :
    let o : Order := { kind := .transfer (.cell 0) (some (.slot 0)), number := none, serves := some 1,
                       progress := .notPicked, newHome := false }
    let l := (withAcc fun v => { v with state := .waitSpan, current := some o, need := some ⟨0, 3⟩ }).lib
    let m := l.setAside ready.set .a ⟨2, 3⟩
    m.touching .a = true ∧ (m.unstage .a).touching .a = false := by decide

/-- A held reel that finds a place loses its LIBRARY-FULL notice (R112, R128). -/
theorem test_held_found :
    let o : Order := { kind := .transfer (.cell 1) none, number := none, serves := some 1,
                       progress := .picked, newHome := false }
    let notice := prompt .libraryFull false { PromptSubject.nothing with accessor := some .a }
    let l := { lib with reqs := { lib.reqs with live := [request 1 .ret .returning (.volume serialC)] } }
    let l := (l.updAcc .a fun v => { v with state := .moving, current := some o }).setPrompt 0 (some notice)
    (l.retargetOrHold ready.set .a).prompts.slots = List.replicate 16 none := by decide +kernel

/-- Accessor A waits with the reel C in its gripper for a span to column 2, and B is FAULTED there. -/
def cutOff (k : Kind) (st : ReqState) (d : Place) (newHome : Bool) : Lib :=
  let o : Order := { kind := .transfer (.cell 1) (some d), number := none, serves := some 1, progress := .picked,
                     newHome := newHome }
  let l := (lib.updAcc .a fun v => { v with state := .waitSpan, current := some o, need := some ⟨0, 2⟩ }).updAcc .b
    fun v => { v with state := .faulted .timeout 2 }
  { l with reqs := { l.reqs with live := [{ request 1 k st (.volume serialC) with qseq := some 9 }] } }

/-- A waiting return out of reach goes back to RETURN-READY with its reel in the gripper, and its cell of case 2 is
freed (R99, R105). -/
theorem test_cutOff_return :
    let l := (cutOff .ret .returning (.cell 5) true).updVol serialC fun v =>
      { v with state := .inTransit .a, homeCell := some 5 }
    let m := { l with place := { l.place with cells := l.place.cells.set 5 (.awaited serialC) } }.dropUnreachable
      ready.set .a
    (m.req? 1).map (fun r => (r.state, r.source, r.qseq)) = some (.returnReady, some (.gripper .a), some 9)
      ∧ m.cell 5 = .empty none ∧ (m.vol? serialC).bind Volume.homeCell = none ∧ (m.acc .a).state = .idle
      ∧ (m.acc .a).current = none := by decide +kernel

/-- A waiting fetch with its reel picked goes back to QUEUED, its drive is released, and A takes no other job
(R96, R99, R105). -/
theorem test_cutOff_fetch :
    let m := ((cutOff .mount .fetching (.drive 0) false).reserveDrive 0 1 .current).dropUnreachable ready.set .a
    (m.req? 1).map (fun r => (r.state, r.source, r.drive)) = some (.queued, some (.gripper .a), none)
      ∧ (m.drive 0).state = .idle ∧ m.gripperAllows .a (request 2 .audit .queued .none) = false := by decide +kernel

/-- A cancelled return that has not picked completes at its accessor's fault (R115), and a RETURN of the reel left at
the drive is made in the same step (log 65). -/
theorem test_fault_cancelledReturn :
    let o : Order := { kind := .transfer (.drive 0) (some (.cell 0)), number := some 9, serves := some 1,
                       progress := .notPicked, newHome := false }
    let l := (lib.updVol serialA fun v => { v with state := .onDrive 0, holder := some 1 }).updDrive 0 fun v =>
      { v with state := .awaitPick, reel := .recorded serialA, serving := some 1 }
    let l := (l.updAcc .a fun v => { v with state := .moving, current := some o }).updAcc .b fun v =>
      { v with state := .faulted .timeout 3 }
    let r : Request := { request 1 .mount .returning (.volume serialA) with
      source := some (.drive 0), code := some .cancelled, cancelPending := true }
    let s := after (.accessorFaultReport .a 9 0 5) (state { l with reqs := { l.reqs with live := [r] } })
    s.lib.reqs.live.map (fun q => (q.kind, q.state, q.source))
        = [(.mount, .done, some (.drive 0)), (.ret, .returnReady, some (.drive 0))]
      ∧ (s.lib.req? 1).bind Request.code = some .cancelled
      ∧ (s.lib.drive 0).serving = (s.lib.vol? serialA).bind Volume.holder
      ∧ (s.lib.drive 0).serving = some 32768 := by decide +kernel

/-- A cell chosen for a reel that has lost its drive is one that R99 releases; one chosen by R112 is not. -/
theorem test_newHome :
    let chosen (asReturn : Bool) : Option Bool :=
      let o : Order := { kind := .transfer (.cell 1) none, number := none, serves := some 1, progress := .picked,
                         newHome := false, asReturn := asReturn }
      let l := (lib.updVol serialC fun v => { v with homeCell := none }).updAcc .a fun v =>
        { v with state := .moving, current := some o }
      let l := { l with reqs := { l.reqs with live := [request 1 .ret .returning (.volume serialC)] } }
      ((l.retargetOrHold ready.set .a).acc .a).current.map Order.newHome
    chosen true = some true ∧ chosen false = some false := by decide +kernel

/-- A MANUAL-MOUNT presented with a deadline. -/
def deadlineState : State :=
  let s := withPrompt 15 { prompt .manualMount true .nothing with deadline := some ⟨0, 7200⟩ }
  { s with lib := { s.lib with prompts := { s.lib.prompts with presented := some 1 } } }

/-- Set Clock sends the presented posting again, without alert, where its deadline moves (R130, R190). -/
theorem test_setClock_presents :
    (after (.setClock 1 0) deadlineState).lib.out = [.present
      { prompt := { prompt .manualMount true .nothing with deadline := some ⟨1, 7200⟩ }, alert := false }]
    ∧ (after (.setClock 0 0) deadlineState).lib.out = [] := by decide +kernel

/-- A staged EJECT freed by a link reset brings STATION-REMOVE up only after the waiting list has had its slot
(R140). -/
theorem test_reset_waits_first :
    let own (t : Nat) : Prompt := prompt .manualDismount true { PromptSubject.nothing with tag := some t }
    let eject : Order := { kind := .transfer (.cell 0) (some (.slot 0)), number := none, serves := some 2,
                           progress := .notPicked, newHome := false }
    let inside (t : Nat) : Request := { request t .mount .returning .none with origin := .internal }
    let l : Lib := { lib with
      reqs := { lib.reqs with live := [request 1 .mount .manual .none, request 2 .eject .moving (.volume serialA),
                                       inside 40000, inside 40001] }
      place := { lib.place with slots := [.place 2, .outbound none] ++ List.replicate 6 .empty }
      prompts := { lib.prompts with
        slots := some (own 1) :: List.replicate 15 (some { own 40000 with posting := 2 })
        waits := [{ tag := 40001, kind := .manualDismount, subject := (own 40001).subject, detail := 0
                    qseq := 1 }] } }
    let l := (l.updAcc .a fun v => { v with staged := some eject }).linkReset ready.set
    ((l.prompts.slots.getD 0 none).bind fun p => p.subject.tag) = some 40001 ∧ l.prompts.waits = []
      ∧ l.slot 0 = .empty := by decide +kernel

/-! ## Hypotheses met -/

theorem test_w_queue : { ready with pending := [Instr.testReady] }.pending = .testReady :: [] ∧ ready.pending = [] := by
  decide

theorem test_w_inv : Inv ready ∧ step ready = .next ready := by
  refine ⟨⟨⟨⟨by decide, by decide⟩, ⟨rfl, by decide, ?_⟩, by decide, ?_, rfl, by decide⟩, ?_, rfl⟩, rfl⟩
  · intro m n m1 m2 n1 n2
    interval_cases m <;> interval_cases n <;> decide
  · unfold Timers.legal; decide
  · refine ⟨by decide, by decide, ?_, by decide, by decide, by decide⟩
    intro n h; cases h

theorem test_w_shape : ready.lib.shape = specShape := by decide

theorem test_w_warned : { ready with set := { ready.set with warned := true } }.set.warned = true ∧ ready.live
    ∧ ∀ u m d v r, Instr.testReady ≠ .powerOn u m d v r := by
  exact ⟨rfl, rfl, by intros; simp⟩

theorem test_w_libraryState : exec .linkReset ready = .next (after .linkReset ready)
    ∧ (∀ u m d v r, Instr.linkReset ≠ .powerOn u m d v r) ∧ Instr.linkReset ≠ .enterReady
    ∧ Instr.linkReset ≠ .formatCatalogue ∧ ∀ b, Instr.linkReset ≠ .byteHandshake b := by
  exact ⟨rfl, by intros; simp, by decide, by decide, by intros; simp⟩

theorem test_w_turnedAway : (inState .formatting).live ∧ (inState .formatting).lib.start.state = .formatting
    ∧ hostCommand .readLinks = some cmdReadLinks ∧ Instr.readLinks ≠ .testReady ∧ Instr.readLinks ≠ .inquire
    ∧ Instr.readLinks ≠ .resumeLibrary ∧ 0x01 ∉ Instr.hostCodes ∧ 0xFF ∉ Instr.hostCodes := by
  exact ⟨rfl, rfl, rfl, by decide, by decide, by decide, by decide, by decide⟩

def good : Lib := (after (.powerOn 7 true true true []) ready).lib
def bad : Lib := (after (.powerOn 0 false true true []) ready).lib

theorem test_w_powerOn : (good.store.mark = true ∧ good.store.checked = true)
    ∧ ¬(bad.store.mark = true ∧ bad.store.checked = true) := by decide +kernel

/-! ### The port -/

def withPort (p : Port) : State := { ready with port := p }

theorem test_w_selection : ready.live ∧ ready.port.conn = .free ∧ (1 : Byte) = BitVec.ofNat 8 (2 ^ ready.set.unit)
    ∧ (withPort { Port.powerOn with conn := .status }).port.conn ≠ .free
    ∧ (3 : Byte) ≠ BitVec.ofNat 8 (2 ^ ready.set.unit)
    ∧ (withPort { Port.powerOn with conn := .selecting }).port.conn = .selecting := by
  exact ⟨rfl, by decide, by decide, by decide, by decide, by decide⟩

theorem test_w_ackRelease : ∀ c ∈ [Conn.command, .dataOut, .dataIn, .status, .ending],
    (withPort { Port.powerOn with conn := c, inData := [7] }).port.req = false ∧ c ≠ .free ∧ c ≠ .selecting := by decide

theorem test_w_handshake :
    blockLength ((([] ++ [0x00] : List Byte).getD 0 0).toNat) = some 6
    ∧ blockLength ((([0x84, 0, 0, 0, 0, 0, 0, 0, 0, 0, 0, 0, 0, 0] ++ [0] : List Byte).getD 0 0).toNat) = some 16
    ∧ (withPort { Port.powerOn with conn := .dataIn, req := true, inData := [7] }).port.inData = 7 :: []
    ∧ (withPort { Port.powerOn with conn := .status, req := true }).port.req = true
    ∧ (withPort { Port.powerOn with conn := .ending, req := true }).port.conn = .ending := by decide

def fiveTaken : State := withPort { Port.powerOn with conn := .command, req := true, block := [0, 0, 0, 0, 0] }

theorem test_w_applies : fiveTaken.live ∧ fiveTaken.port.req = true ∧ fiveTaken.port.conn = .command
    ∧ blockLength 0 = some 6 ∧ knownCode 0 = true ∧ (0x40 ≤ 0 → requiredLength 0 [0, 0, 0, 0, 0, 0] = 0)
    ∧ reservedZero 0 [0, 0, 0, 0, 0, 0] = true ∧ fiveTaken.port.outData = []
    ∧ spelled [0, 0, 0, 0, 0, 0] fiveTaken.port.outData = some .testReady
    ∧ exec .testReady { fiveTaken with port := { fiveTaken.port with
        block := [0, 0, 0, 0, 0, 0], req := false, stall := some 10 } }
      = .next (after .testReady { fiveTaken with port := { fiveTaken.port with
          block := [0, 0, 0, 0, 0, 0], req := false, stall := some 10 } }) := by
  exact ⟨rfl, rfl, rfl, rfl, rfl, by decide, rfl, rfl, rfl, rfl⟩

/-- The Mount block of the worked example in 10_the_request_link, and its six bytes of data-out. -/
def mountBlock : List Byte := [0x40, 0, 42, 0x52, 0x30, 0x30, 0x35, 0x31, 0x32, 6]
def mountOut : List Byte := [1, 0, 77, 2, 1, 0]

/-- The block is whole, and one byte of the data-out is left. -/
def lastOut : State := withPort { Port.powerOn with
  conn := .dataOut, req := true, block := mountBlock, outData := mountOut.take 5, outLeft := 1 }

theorem test_w_dataOut : blockLength 0x40 = some mountBlock.length ∧ knownCode 0x40 = true
    ∧ 0 < requiredLength 0x40 mountBlock ∧ parameterLength 0x40 mountBlock = requiredLength 0x40 mountBlock
    ∧ 1 < requiredLength 0x40 mountBlock ∧ lastOut.live ∧ lastOut.port.req = true ∧ lastOut.port.conn = .dataOut
    ∧ lastOut.port.outLeft = 1 ∧ reservedZero 0x40 lastOut.port.block = true
    ∧ (spelled lastOut.port.block (lastOut.port.outData ++ [0])).isSome = true := by
  exact ⟨by decide, by decide, by decide, by decide, by decide, rfl, rfl, rfl, rfl, by decide, by decide⟩

/-- The same as steps: the DATA-OUT phase begins, and its last byte applies the Mount, refused for its account. -/
theorem test_dataOut_begins :
    let s := after (.byteHandshake 6) (withPort { Port.powerOn with
      conn := .command, req := true, block := mountBlock.take 9 })
    s.port.conn = .dataOut ∧ s.port.outLeft = 6 := by decide

theorem test_dataOut_applies : let p := (after (.byteHandshake 0) lastOut).port
    p.conn = .status ∧ p.last = some (.check .accountUnknown (.account 77)) ∧ p.status = 1 := by decide +kernel

/-- The port's own endings: codes without group at C0h and FFh, codes outside the table, a code that FORMATTING
does not take, another length, and a reserved byte, of a block of six, ten and sixteen bytes. -/
theorem test_w_portEndings : 0xC0 ≤ ((([] : List Byte) ++ [0xC0]).getD 0 0).toNat
    ∧ 0xC0 ≤ ((([] : List Byte) ++ [0xFF]).getD 0 0).toNat
    ∧ (∀ x ∈ [(0x01, 6), (0x7F, 10), (0xBF, 16)], blockLength x.1 = some x.2 ∧ knownCode x.1 = false)
    ∧ knownCode 0x19 = true ∧ 0x19 ∉ [0x00, 0x03, 0x0A, 0x18] ∧ 0x18 ∈ [0x00, 0x03, 0x0A, 0x18]
    ∧ parameterLength 0x40 [0x40, 0, 42, 0x52, 0x30, 0x30, 0x35, 0x31, 0x32, 5] ≠ requiredLength 0x40 mountBlock
    ∧ reservedZero 0x00 [0, 0, 0, 0, 0, 1] = false ∧ reservedZero 0x54 [0x54, 0, 7, 0, 1, 0, 0, 0, 0, 0] = false
    ∧ reservedZero 0x48 [0x48, 0x41, 0x31, 0x20, 0x20, 0x20, 0x20, 1, 1, 7] = false
    ∧ requiredLength 0x81 (0x81 :: List.replicate 15 0) = 0
    ∧ reservedZero 0x81 (0x81 :: List.replicate 12 0 ++ [1, 0, 0]) = false := by decide

/-- A ten-byte block without data-out: Set Cell of cell 7. -/
theorem test_w_applies_ten :
    let block : List Byte := [0x54, 0, 7, 0, 0, 0, 0, 0, 0, 0]
    requiredLength 0x54 block = 0 ∧ parameterLength 0x54 block = 0 ∧ reservedZero 0x54 block = true
    ∧ spelled block [] = some (.setCell 7 0) ∧ takenInFormat 0x18 = true := by decide

theorem test_w_connectionEnds :
    (withPort { Port.powerOn with conn := .ending, req := true }).port.req = true
    ∧ (withPort { Port.powerOn with conn := .command, stall := some 0 }).port.stall = some 0 := by decide

def heldVolume (st : ReqState) : State :=
  state ({ lib with reqs := { lib.reqs with live := [request 32767 .mount st (.volume serialA)] } }.updVol serialA
    fun v => { v with holder := some 32767 })

theorem test_w_linkReset_freed : ∀ st ∈ [ReqState.done, .held, .queued, .manual],
    (heldVolume st).lib.reqs.live = [request 32767 .mount st (.volume serialA)]
    ∧ (heldVolume st).lib.pickSlot? 32767 = none
    ∧ ((heldVolume st).lib.vol? serialA).bind Volume.holder = some 32767
    ∧ (heldVolume st).lib.prompts.waits = [] := by decide

/-! ### Settings -/

theorem test_w_libraryStates : ∀ st ∈ [LibState.ready, .starting, .unformatted, .formatting],
    (inState st).set.warned = false ∧ (inState st).lib.start.state = st := by decide

theorem test_w_serving : ready.live ∧ ready.serving ∧ (inState .starting).serving := ⟨rfl, Or.inl rfl, Or.inr rfl⟩

theorem test_w_masked : let s : State := { ready with set := { ready.set with mask := 0x81 } }
    s.live ∧ s.lib.start.state ≠ .formatting ∧ s.set.mask.getLsbD 0 = true ∧ s.set.mask.getLsbD 7 = true := by
  exact ⟨rfl, by decide, by decide, by decide⟩

theorem test_w_ranges : ready.lib.place.cells.length ≤ ready.lib.place.cells.length ∧ 2 < 3 ∧ 0 < 1 ∧ 12 < 13 ∧ 5 < 6 :=
  ⟨Nat.le_refl _, by decide, by decide, by decide, by decide⟩

theorem test_w_mask : (31 < 32 ∧ 32 ≤ 32) ∧ (inState .formatting).lib.start.state = .formatting := by decide

/-- Source 12 takes NONE, and the exclusive QUEUE-CLEAN once source 3 has lost it; source 3 holds QUEUE-CLEAN by
default, so source 12 is refused it; source 1 does not suit it. -/
theorem test_w_setLink : Action.ofCode? 0 = some .none ∧ Action.suits .none 12 = true ∧ Action.ofCode? 2 = some .queueClean
    ∧ Action.suits .queueClean 12 = true
    ∧ (∀ n ∈ List.range 13, 1 ≤ n → n ≠ 12 → entryOf (defaultLinks.set 2 .none) n ≠ .queueClean)
    ∧ Action.suits .queueClean 1 = false
    ∧ entryOf ready.set.links 3 = .queueClean ∧ Action.exclusive .queueClean = true
    ∧ (∀ m ∈ [1, 2], entryOf ready.set.links m ≠ .queueClean) := by decide

theorem test_w_clock : (65535 ≤ 65535 ∧ 86399 ≤ 86399) ∧ timersOk timersBlock = true
    ∧ timersOk { timersBlock with threshold := unchanged, period := unchanged } = true := by decide

theorem test_w_clockPrompt : deadlineState.lib.prompts.presented = some 1
    ∧ deadlineState.lib.posted? 1
        = some (15, { prompt .manualMount true .nothing with deadline := some ⟨0, 7200⟩ })
    ∧ Clock.moved deadlineState.set.clock ⟨65535, 86399⟩ ⟨0, 7200⟩ ≠ ⟨0, 7200⟩
    ∧ Clock.moved deadlineState.set.clock deadlineState.set.clock ⟨0, 7200⟩ = ⟨0, 7200⟩
    ∧ ready.lib.prompts.presented = none := by decide

/-- A MOUNTED request of account 7. -/
def accruing : State :=
  withReq { request 1 .mount .mounted (.volume serialA) with account := some 7, accruedFrom := some ⟨0, 0⟩ }

theorem test_w_accruing : accruing.lib.account? 7 = some account7
    ∧ (accruing.lib.req? 1).map (fun r => (r.state, r.account, r.accruedFrom)) = some (.mounted, some 7, some ⟨0, 0⟩)
    ∧ ∀ r ∈ accruing.lib.reqs.live, r.tag = 2 → r.state ≠ .mounted := by decide

theorem test_w_queries : serialA.valid = true ∧ ready.lib.vol? serialA = some volA
    ∧ (withReq (request 1 .mount .queued (.volume serialA))).lib.req? 1
        = some (request 1 .mount .queued (.volume serialA))
    ∧ answered (ready.lib.prompts.slots.getD 15 none) = false ∧ Serial.blank = Serial.blank := by decide

/-- A request with every optional field, as Query Request returns it, and one with none. -/
def fullRequest : Request :=
  { request 32767 .mount .mounted (.volume serialA) with
    drive := some 15, path := some 7, density := some 3, account := some 9999, access := some .write
    manualAllowed := some true, route := some .station, expiryDays := some 9999, mountedAt := some ⟨65535, 86399⟩
    source := some (.gripper .b), cursor := some { next := 47, first := 0, last := 47 }, code := some .noDestination }

theorem test_queryRequest_bytes :
    dataBytes (requestFields fullRequest (some 65535))
      = [127, 255, 1, 1, 7, 0x3F, 0xFF, 0x41, 0x31, 0x20, 0x20, 0x20, 0x20, 15, 7, 3, 0x27, 0x0F, 1, 2, 1, 3,
         0x27, 0x0F, 0, 0, 0, 1, 0, 0, 0, 0, 0, 0xFF, 0xFF, 0x01, 0x51, 0x7F, 4, 0, 1, 47, 47, 0xFF, 0xFF, 0, 9, 0]
    ∧ dataBytes (requestFields (request 1 .ret .returnReady (.unknown none)) none)
      = [0, 1, 1, 7, 10] ++ List.replicate 13 0 ++ [1] ++ List.replicate 8 0 ++ [1] ++ List.replicate 20 0 := by
  decide +kernel

/-- The sense record of the worked example in 10_the_request_link, of a serial, and clear. -/
theorem test_sense_bytes :
    dataBytes (senseFields (some ⟨.accountSuspended, .account 77⟩)) = [0x31, 4, 0, 0x4D, 0, 0, 0, 0]
    ∧ dataBytes (senseFields (some ⟨.volumeUnknown, .serial serialZ⟩)) = [0x10, 1, 0x5A, 0x31, 0x20, 0x20, 0x20, 0x20]
    ∧ dataBytes (senseFields none) = [0, 0, 0, 0, 0, 0, 0, 0] := by decide

/-! ### Volumes, cells and the station -/

theorem test_w_enter : enterClass? enterBlock = some (.priv 7 65535) ∧ enterFieldsOk enterBlock = true
    ∧ ready.lib.vol? serialZ = none ∧ ready.lib.cat.vols.length < 4096 ∧ ready.lib.account? 7 = some account7
    ∧ account7.suspended = false := by decide

theorem test_w_retire : serialB.valid = true ∧ ready.lib.vol? serialB = some volB ∧ volB.holder = none
    ∧ volB.state = .shelf := by decide

theorem test_w_update : updateFieldsOk updateBlock = true ∧ updateFits updateBlock volA = true
    ∧ updateFieldsOk { updateBlock with owner := change 7, density := change 3 } = true
    ∧ updateFits { updateBlock with owner := change 7, density := change 3 } volA = true ∧ volA.holder = none := by decide

theorem test_w_release : volA.cls = .priv 7 0 ∧ volA.holder = none
    ∧ { ready.set with clockSet := true }.clockSet = true ∧ 0 ≤ ready.set.clock.day := by decide

theorem test_w_setCell : 7 < ready.lib.place.cells.length ∧ ready.lib.cell 3 = .foreign ∧ ready.lib.cell 7 = .empty none
    ∧ (ready.lib.cell 0 ≠ .foreign ∧ ready.lib.cell 0 ≠ .empty none) ∧ ready.lib.cell 4 = .disabled
    ∧ ready.lib.cell 0 ≠ .disabled := by decide

theorem test_w_scan : ready.lib.place.doorOpen = false ∧ (withSlot 7 (.inbound none)).lib.slot 7 = .inbound none
    ∧ { lib.place with doorOpen := true }.doorOpen = true ∧ (withSlot 7 (.inbound none)).lib.shape = specShape := by
  decide

/-- Slot 7 INBOUND with a label. -/
def inbound (label : Serial) : Lib := (withSlot 7 (.inbound (some label))).lib

/-- A request that holds the volume B and waits for it, by the route given. -/
def waitsFor (route : Route) : Lib :=
  { inbound serialB with
    reqs := { lib.reqs with live := [{ request 1 .mount .manual (.volume serialB) with route := some route }] } }.updVol
      serialB fun v => { v with holder := some 1 }

theorem test_w_scan_shelf : (inbound serialA).vol? serialA = some volA ∧ volA.state ≠ .shelf
    ∧ (inbound serialB).vol? serialB = some volB ∧ volB.state = .shelf ∧ volB.holder = none
    ∧ (inbound serialB).freeCell? = some 5 ∧ (inbound serialB).entryFree = true
    ∧ (fullTable (inbound serialB)).entryFree = false
    ∧ { inbound serialB with place := { (inbound serialB).place with cells := [.foreign] } }.freeCell? = none := by
  decide

theorem test_w_scan_waiter : ((waitsFor .station).vol? serialB).bind Volume.holder = some 1
    ∧ ((waitsFor .station).req? 1).map (fun r => (r.kind, r.state, r.route)) = some (.mount, .manual, some .station)
    ∧ ((waitsFor .manualDrive).req? 1).map Request.route = some (some .manualDrive)
    ∧ (waitsFor .station).slot 7 = .inbound (some serialB) := by decide

theorem test_w_scan_unknown : (inbound serialZ).vol? serialZ = none ∧ (inbound serialZ).store.lib.autoEnter = true
    ∧ (inbound serialZ).cat.vols.length < 4096 ∧ (inbound serialZ).freeCell? = some 5
    ∧ { inbound serialZ with store := { lib.store with lib := { lib.store.lib with autoEnter := false } }
      }.store.lib.autoEnter = false := by decide

/-- A catalogue full of other volumes. -/
def fullCatalogue : Lib := { inbound serialZ with cat := { lib.cat with vols := List.replicate 4096 volA } }

theorem test_w_scan_full : fullCatalogue.vol? serialZ = none ∧ 4096 ≤ fullCatalogue.cat.vols.length := by
  refine ⟨?_, Nat.le_of_eq List.length_replicate.symm⟩
  exact List.find?_eq_none.2 fun v hv => by rw [List.eq_of_mem_replicate hv]; decide

theorem test_w_scan_starting : (inState .starting).lib.start.state = .starting
    ∧ (inState .starting).lib.shape = specShape := by decide

/-- The door is OPEN and slot 7 holds an unreadable reel. -/
def doorLinked : State :=
  linked 1 .scanStation fun l => { l with place := { l.place with
    doorOpen := true, slots := l.place.slots.set 7 (.inbound none) } }

theorem test_w_doorLinked : doorLinked.lib.shape = specShape ∧ doorLinked.found.place.doorOpen = true
    ∧ doorLinked.found.rail.interlock = true ∧ doorLinked.found.start.state = .ready
    ∧ entryOf doorLinked.set.links 1 = .scanStation ∧ doorLinked.found.slot 7 = .inbound none := by decide

theorem test_w_doorLinked_labels : ∀ k label, doorLinked.found.slot k ≠ .inbound (some label) := by
  intro k label
  by_cases h : k < 8
  · have : ∀ j, j < 8 → doorLinked.found.slot j = .empty ∨ doorLinked.found.slot j = .inbound none := by decide
    rcases this k h with h | h <;> simp [h]
  · have : doorLinked.found.place.slots.length ≤ k := by
      have : doorLinked.found.place.slots.length = 8 := by decide
      omega
    simp [Lib.slot, List.getD_eq_getElem?_getD, List.getElem?_eq_none this]

theorem test_w_station : ready.found.place.doorOpen = false
    ∧ (state { lib with place := { lib.place with doorOpen := true } }).found.place.doorOpen = true := by decide

theorem test_w_slots : ready.found.slot 0 = .empty ∧ ready.found.slot 7 = .empty
    ∧ (withSlot 7 (.inbound none)).found.slot 7 = .inbound none
    ∧ (withSlot 0 (.rejected none .unreadable)).found.slot 0 = .rejected none .unreadable := by decide

theorem test_w_serviceDoor : ready.found.rail.serviceOpen = false ∧ ready.found.rail.interlock = false
    ∧ ready.found.isFaulted .b = false ∧ (ready.found.acc .b).state ≠ .halted
    ∧ (state { lib with rail := { lib.rail with serviceOpen := true } }).found.rail.serviceOpen = true := by decide

/-- An accessor HALTED since an earlier opening, after Resume Library, with its reconcile query outstanding. -/
def askedAtHalt : State := withAcc fun v => { v with
  state := .halted, query := some { number := 255, purpose := .reconcile }, timer := some 1 }

theorem test_w_askedAtHalt : askedAtHalt.found.rail.serviceOpen = false ∧ askedAtHalt.found.rail.interlock = false
    ∧ (askedAtHalt.found.acc .a).staged = none ∧ (askedAtHalt.found.acc .b).staged = none
    ∧ ((askedAtHalt.found.acc .a).query.map Query.purpose) = some .reconcile := by decide

/-- R182: the step timer of the query starts again at that OPENED (R123). -/
theorem test_reconcile_timer : let v := (after .serviceDoorOpened askedAtHalt).lib.acc .a
    v.state = .halted ∧ v.query = some { number := 255, purpose := .reconcile } ∧ v.timer = some 120 := by
  decide +kernel

/-- The service door is OPEN over a halted span of columns 0 to 3. -/
def doorAudit (f : Lib → Lib) : State :=
  linked 2 .auditSpan fun l => f { l with rail := { l.rail with serviceOpen := true, haltedSpan := some ⟨0, 3⟩ } }

/-- The audit of AUDIT-SPAN over columns 0 to 3, QUEUED. -/
def spanAudit : Request :=
  { request 32768 .audit .queued .none with
    origin := .internal, bySpan := true, cursor := some { next := 0, first := 0, last := 3 } }

theorem test_w_doorAudit : (doorAudit id).found.rail.serviceOpen = true ∧ (doorAudit id).found.rail.interlock = true
    ∧ (doorAudit id).found.rail.haltedSpan = some ⟨0, 3⟩ ∧ (doorAudit id).found.serving = true
    ∧ entryOf (doorAudit id).set.links 2 = .auditSpan ∧ (doorAudit id).found.auditStands ⟨0, 3⟩ = false
    ∧ (doorAudit id).found.entryFree = true ∧ (doorAudit fullTable).found.entryFree = false
    ∧ (doorAudit fun l => { l with reqs := { l.reqs with live := [spanAudit] } }).found.auditStands ⟨0, 3⟩ = true := by
  decide

/-! ### Drives -/

theorem test_w_defineDrive : driveFieldsOk driveBlock ready.lib.store.lib.columns = true
    ∧ (ready.lib.drive driveBlock.drive).state = .offline
    ∧ (ready.lib.drive 0).defn = some (driveDef (.automated 2)) := by decide

theorem test_w_vary : (ready.lib.drive 0).defn.isSome = true ∧ (ready.lib.drive 0).state = .idle
    ∧ ((withDrive 0 fun v => { v with state := .mounted ⟨0, 0⟩ }).lib.drive 0).state = .mounted ⟨0, 0⟩
    ∧ ((withDrive 0 fun v => { v with state := .offline }).lib.drive 0).state = .offline
    ∧ ((withDrive 0 fun v => { v with state := .offline, detached := true }).lib.drive 0).detached = true := by decide

/-- A request that waits for a MANUAL drive, and MANUAL drive 1 OFFLINE. -/
def waiter : Request :=
  { request 1 .mount .manual (.volume serialB) with route := some .manualDrive, path := some 0, density := some 1 }

def manualOff : State :=
  state ({ lib with reqs := { lib.reqs with live := [waiter] } }.updDrive 1 fun v => { v with state := .offline })

theorem test_w_manualOff : (manualOff.lib.drive 1).state = .offline ∧ (manualOff.lib.drive 1).detached = false
    ∧ (manualOff.lib.drive 1).cleanDue = false ∧ (manualOff.lib.drive 1).defn = some (driveDef .manual)
    ∧ manualOff.lib.req? 1 = some waiter ∧ waiter.state = .manual ∧ waiter.route = some .manualDrive
    ∧ waiter.drive = none ∧ manualOff.set.paths.getD 0 false = true ∧ 0 ∈ (driveDef .manual).paths
    ∧ 1 ∈ (driveDef .manual).densities ∧ (∀ q ∈ manualOff.lib.reqs.live, q.tag = waiter.tag) := by decide

theorem test_w_path : 7 < 8 ∧ ready.set.paths.getD 7 false = true := by decide

/-- Drive 15 AUTOMATED, serving the request of tag 1 with the volume A. -/
def serving (st : DriveState) (rst : ReqState) : State :=
  let l := lib.updDrive 15 fun v =>
    { v with defn := some (driveDef (.automated 2)), state := st, serving := some 1, reel := .recorded serialA
             threadLeft := some 0, unloadLeft := some 0 }
  state { l with reqs := { l.reqs with
    live := [{ request 1 .mount rst (.volume serialA) with drive := some 15, account := some 7 }] } }

theorem test_w_loaded : ((serving .threading .threading).found.drive 15).state = .threading
    ∧ ((serving .threading .threading).found.drive 15).serving = some 1
    ∧ ((serving .threading .threading).found.drive 15).defn = some (driveDef (.automated 2))
    ∧ ((serving .threading .threading).found.req? 1).isSome = true
    ∧ ((serving .threading .threading).found.req? 1).any Request.cancelPending = false
    ∧ ((serving .threading .threading).found.drive 15).threadLeft = some 0
    ∧ (serving .threading .threading).lib.shape = specShape := by decide

theorem test_w_unloaded : ((serving .rewinding .rewinding).found.drive 15).state = .rewinding
    ∧ (serving .rewinding .rewinding).found.vol? serialA = some volA
    ∧ ((serving .rewinding .rewinding).found.drive 15).unloadLeft = some 0
    ∧ (ready.found.drive 0).state = .idle ∧ (ready.found.drive 15).state = .offline
    ∧ ((serving (.reserved .current) .fetching).found.drive 15).state = .reserved .current
    ∧ ((serving .awaitPick .returnReady).found.drive 15).state = .awaitPick
    ∧ ((serving (.mounted ⟨0, 0⟩) .mounted).found.drive 15).state = .mounted ⟨0, 0⟩ := by decide

theorem test_w_unloaded_discarded :
    ((serving .awaitPick .returnReady).found.drive 15).reel = .recorded serialA
    ∧ (serving .awaitPick .returnReady).found.vol? serialA = some volA
    ∧ ((withDrive 15 fun v => { v with state := .faulted }).found.drive 15).state = .faulted
    ∧ ((withDrive 15 fun v => { v with state := .faulted }).found.drive 15).reel = .none
    ∧ (∀ v ∈ (withDrive 15 fun v => { v with state := .faulted }).found.cat.vols, v.state ≠ .onDrive 15)
    ∧ ((withDrive 15 fun v => { v with state := .awaitPick, reel := .unrecorded }).found.drive 15).reel = .unrecorded
    ∧ ((withDrive 15 fun v => { v with state := .awaitPick, reel := .unrecorded }).found.drive 15).state = .awaitPick
    ∧ (∀ v ∈ (withDrive 15 fun v => { v with state := .awaitPick, reel := .unrecorded }).found.cat.vols,
        v.state ≠ .onDrive 15) := by decide

/-- UNLOADED in AWAIT-PICK adds its error figure and is then discarded (R56, log 34). -/
theorem test_unloaded_await :
    let s := after (.unloaded 15 255) (serving .awaitPick .returnReady)
    s.lib.vol? serialA = some { volA with errors := 255 } ∧ (s.lib.drive 15).state = .awaitPick := by decide +kernel

/-- The notice of a drive that faults with a recorded reel and no request names the drive alone (R57, R127). -/
theorem test_attention_notice :
    let s := after (.driveFaultReport 15 9)
      (withDrive 15 fun v => { v with state := .rewinding, reel := .recorded serialA })
    ((s.lib.prompts.slots.getD 0 none).map fun p => (p.kind, p.subject))
      = some (.driveAttention, { PromptSubject.nothing with drive := some 15 }) := by decide +kernel

/-- The volume A is ON-DRIVE at drive `d`, whose reel field says nothing yet. -/
def onDrive (d : Nat) : State := state (lib.updVol serialA fun v => { v with state := .onDrive d })

theorem test_w_unloaded_errors : ∀ d ∈ [0, 15], ((onDrive d).found.drive d).reel = .none
    ∧ (((onDrive d).found.drive d).state = .idle ∨ ((onDrive d).found.drive d).state = .offline)
    ∧ (onDrive d).found.volOnDrive? d = some { volA with state := .onDrive d }
    ∧ (onDrive d).found.vol? serialA = some { volA with state := .onDrive d } := by decide

/-- Drive 15 holds an unrecorded reel, in the state given. -/
def strayAt (st : DriveState) : State :=
  withDrive 15 fun v => { v with state := st, reel := .unrecorded, unloadLeft := some 300 }

theorem test_w_unloaded_stray : ∀ st ∈ [DriveState.rewinding, .awaitPick, .idle],
    ((strayAt st).found.drive 15).state = st ∧ ((strayAt st).found.drive 15).reel = .unrecorded := by decide

/-- Drive 15 awaits its reconcile reply, and the records place the volume A there. -/
def reconciling (f : Drive → Drive) : State :=
  state ((lib.updVol serialA fun v => { v with state := .onDrive 15 }).updDrive 15 fun v =>
    f { v with queried := true, queryLeft := some 9 })

/-- An unrequested LOADED-READY before the reconcile reply: the reel is the volume the records place there (R44,
log 45), it takes the error figure (R2, R56), and a reply that names it changes nothing else (R60). -/
theorem test_loaded_before_reply :
    let s := after (.unloaded 15 7) (after (.loadedReady 15 none) (reconciling id))
    let t := after (.holding 15 (.reel (some serialA) false)) s
    s.lib.vol? serialA = some { volA with state := .onDrive 15, errors := volA.errors + 7 }
      ∧ t.lib.drive 15
        = { s.lib.drive 15 with queried := false, queryLeft := none, reported := some serialA } := by decide +kernel

/-- A reply that names another reel makes the volume MISSING and the reel an unrecorded one (R181). -/
theorem test_reply_other :
    let s := after (.holding 15 (.reel none false)) (after (.loadedReady 15 none) (reconciling id))
    (s.lib.vol? serialA).map Volume.state = some .missing
      ∧ ((s.lib.drive 15).reel, (s.lib.drive 15).state) = (.unrecorded, .rewinding) := by decide +kernel

/-- A reconcile reply of none at an IDLE drive leaves its idle-since (R60, log 40). -/
theorem test_reply_none_idle :
    let s := after (.holding 15 .nothing) (reconciling fun v => { v with state := .idle, idleSince := some ⟨9, 9⟩ })
    (s.lib.vol? serialA).map Volume.state = some .missing ∧ (s.lib.drive 15).idleSince = some ⟨9, 9⟩ := by
  decide +kernel

/-- One reply ends an outstanding query and the awaiting of a late reconcile reply (R60, R180). -/
theorem test_reply_late :
    let s := after (.holding 15 .nothing) (withDrive 15 fun v =>
      { v with queried := true, late := true, detached := true })
    ((s.lib.drive 15).queried, (s.lib.drive 15).late, (s.lib.drive 15).detached) = (false, false, false) := by
  decide +kernel

/-- A fetch of a converted request is not gated by its account, another's is (R153). -/
theorem test_converted_fetch :
    let l := { lib with acct := { lib.acct with accounts := [{ account7 with suspended := true }] } }
    let r : Request := { request 40000 .mount .queued (.volume serialA) with
      account := some 7, path := some 0, density := some 1, source := some (.cell 0) }
    l.dispatchable ready.set .a { r with origin := .internal } = true
      ∧ l.dispatchable ready.set .a { r with origin := .link } = false := by decide +kernel

/-- Each field of a slot record has its presence flag (R36). -/
theorem test_slot_record : (slotFields (.outbound none)).map Field.value = [1, 3, 1, 0, 0, 0, 0, 0, 0, 0] := by decide

/-- The source of CLEANING-REQUESTED linked to QUEUE-CLEAN. -/
def cleanLinked (f : Lib → Lib) : State := linked 3 .queueClean f

theorem test_w_cleanLinked : (cleanLinked id).found.rail.interlock = true ∧ (cleanLinked id).found.serving = true
    ∧ entryOf (cleanLinked id).set.links 3 = .queueClean ∧ ((cleanLinked id).found.drive 0).state ≠ .cleaning
    ∧ (cleanLinked id).found.isAutomated 0 = true ∧ (cleanLinked id).found.cleanNames 0 = false
    ∧ (cleanLinked id).found.entryFree = true ∧ (cleanLinked id).found.chooseCleaner = some volK
    ∧ (cleanLinked id).found.vol? volK.serial = some volK ∧ volK.serial ∉ (cleanLinked id).found.cat.scratch
    ∧ (cleanLinked id).found.isAutomated 15 = false ∧ (cleanLinked fullTable).found.entryFree = false
    ∧ (cleanLinked fun l => { l with cat := { l.cat with vols := [] } }).found.chooseCleaner = none
    ∧ (cleanLinked fun l => { l with reqs := { l.reqs with
        live := [{ request 1 .clean .returning (.volume serialK) with drive := some 0 }] } }).found.cleanNames 0
        = true := by decide

def manualReel : State := withDrive 1 fun v => { v with state := .awaitPick, reel := .recorded serialB }

theorem test_w_reelRemoved : manualReel.found.isAutomated 1 = false ∧ (manualReel.found.drive 1).state = .awaitPick
    ∧ (manualReel.found.drive 1).reel = .recorded serialB ∧ (manualReel.found.drive 1).serving = none
    ∧ (manualReel.found.drive 1).offPending = false ∧ manualReel.found.vol? serialB = some volB
    ∧ ready.found.isAutomated 0 = true
    ∧ ((withDrive 15 fun v => { v with state := .cleaning }).found.drive 15).state = .cleaning
    ∧ (ready.found.drive 0).state ≠ .cleaning := by decide

theorem test_w_detached :
    ((withDrive 15 fun v => { v with detached := true }).found.drive 15).detached = true
    ∧ ((withDrive 15 fun v => { v with detached := true }).found.drive 15).state = .offline
    ∧ (withDrive 15 fun v => { v with detached := true }).found.start.state = .ready
    ∧ (ready.found.drive 0).detached = false ∧ (ready.found.drive 0).state = .idle := by decide

def asked (left : Option Nat) : State := withDrive 15 fun v => { v with queried := true, queryLeft := left }

theorem test_w_holding : ((asked none).found.drive 15).queried = true ∧ ((asked none).found.drive 15).queryLeft = none
    ∧ ((asked none).found.drive 15).late = false ∧ ((asked none).found.drive 15).state = .offline
    ∧ ((asked none).found.drive 15).offPending = false
    ∧ (asked none).found.isAutomated 15 = false ∧ (asked none).found.entryFree = true
    ∧ (withDrive 0 fun v => { v with state := .offline, queried := true }).found.isAutomated 0 = true
    ∧ ((ready.found.drive 0).queried = false ∧ (ready.found.drive 0).late = false)
    ∧ ((asked (some 0)).found.drive 15).queryLeft = some 0
    ∧ (∀ v ∈ (asked (some 0)).found.cat.vols, v.state ≠ .onDrive 15)
    ∧ ((asked (some 1)).found.drive 15).queryLeft ≠ some 0 := by decide

/-! ### Accounts, start-up -/

theorem test_w_accounts : ready.lib.account? 9999 = none ∧ ready.lib.acct.accounts.length < 128
    ∧ ready.lib.account? 7 = some account7 ∧ 0 < ready.lib.ownedCount 7
    ∧ (∀ r ∈ ready.lib.reqs.live, r.account ≠ some 7) := by decide

/-- An account that owns nothing. -/
def idleAccount : State := state { lib with acct := { lib.acct with accounts := [{ account7 with number := 1 }] } }

theorem test_w_closeAccount : (idleAccount.lib.account? 1).isSome = true ∧ ¬ 0 < idleAccount.lib.ownedCount 1
    ∧ ¬ ∃ r ∈ idleAccount.lib.reqs.live, r.account = some 1 := by decide

theorem test_w_period : account7.lastRead = none ∧ account7.stamp ≤ 65535
    ∧ { account7 with lastRead := some ⟨1, 2⟩ }.lastRead = some ⟨1, 2⟩ ∧ 65535 ≠ account7.stamp := by decide

theorem test_w_clockSecond : ready.set.clock.second < 86399
    ∧ { ready.set with clock := ⟨65535, 86399⟩ }.clock.second = 86399 := by decide

theorem test_w_periodTimer : (state { lib with acct := { lib.acct with periodLeft := 0 } }).found.acct.periodLeft = 0
    ∧ ready.found.acct.periodLeft ≠ 0 := by decide

/-- The period timer has run out, and its source is linked to an action. -/
def periodOut (a : Action) : State :=
  { state { lib with acct := { lib.acct with periodLeft := 0 } } with
    set := { ready.set with links := ready.set.links.set 10 a } }

theorem test_w_periodLinks : ∀ a ∈ [Action.none, .raiseAttention, .postNotice, .scanStation],
    entryOf (periodOut a).set.links 11 = a ∧ (periodOut a).found.acct.periodLeft = 0
    ∧ (periodOut a).found.freePromptSlot = some 0
    ∧ (∀ p ∈ (periodOut a).found.prompts.slots, p = none) := by decide

theorem test_w_periodScan :
    { periodOut .scanStation with lib := (inState .starting).lib }.found.start.state ≠ .ready := by decide

theorem test_w_defineLibrary : libraryFieldsOk libraryBlock = true ∧ disabledOk libraryBlock = true
    ∧ (inState .unformatted).lib.start.state = .unformatted ∧ ready.lib.reqs.live = [] := by decide +kernel

def pendingDef : PendingDef := { lib := LibDef.ofBlock { libraryBlock with perColumn := 1 }, disabled := [0] }

def clearing : State :=
  state { lib with
    store := { lib.store with pendingDef := some pendingDef }
    start := { lib.start with state := .formatting, clearing := true } }

theorem test_w_format : clearing.lib.store.pendingDef = some pendingDef ∧ clearing.lib.start.clearing = true
    ∧ clearing.lib.reqs.live = [] ∧ ready.lib.rail.interlock = false := by decide

/-- R188: steps 1 to 3 of the format are made before a timer expiry is taken, that of the ACK stall timer too. -/
theorem test_ackStall_clears :
    let s := after .ackStallExpiry { clearing with port := { Port.powerOn with conn := .status, stall := some 0 } }
    s.port.conn = .free ∧ s.lib.start.clearing = false ∧ s.lib.store.pendingDef = none := by decide +kernel

def reconciledState : State :=
  state { lib with
    start := { lib.start with state := .starting, phase := .reconcile, limit := .running 0 }
    rail := { lib.rail with
      accA := { lib.rail.accA with homing := .ended }, accB := { lib.rail.accB with homing := .ended } } }

/-- Start-up with the cells of columns 0, 2 and 3 AWAITED, and in FULL mode; with the table full, no run is made. -/
def awaitedState (f : Lib → Lib) : State :=
  state (f { reconciledState.lib with start := { reconciledState.lib.start with awaited := [0, 5, 7] } })

def fullMode (l : Lib) : Lib := { l with store := { l.store with lib := { l.store.lib with fullStart := true } } }

theorem test_w_audits : (awaitedState id).found.start.state = .starting ∧ (awaitedState id).found.reconciled = true
    ∧ (awaitedState id).found.homed = true ∧ (awaitedState fullMode).found.store.lib.fullStart = true
    ∧ (awaitedState id).found.start.awaited.map (awaitedState id).found.cellCol = [0, 2, 3]
    ∧ (awaitedState fullTable).found.reqs.live.length = 48 := by decide +kernel

theorem test_audits_made : ((awaitedState id).found.beginAudits ready.set).reqs.live.map
      (fun r => (r.tag, r.cursor.map fun c => (c.next, c.last))) = [(32768, some (0, 0)), (32769, some (2, 3))]
    ∧ ((awaitedState fullMode).found.beginAudits ready.set).reqs.live.map
        (fun r => (r.priority, r.cursor.map fun c => (c.next, c.last))) = [(1, some (0, 3))]
    ∧ ((awaitedState fullTable).found.beginAudits ready.set).start.runs = [⟨0, 0⟩, ⟨2, 3⟩] := by decide +kernel

theorem test_w_audit : reconciledState.found.start.state = .starting ∧ reconciledState.found.start.phase = .reconcile
    ∧ reconciledState.found.reconciled = true ∧ reconciledState.found.homed = true
    ∧ reconciledState.found.store.lib.fullStart = false ∧ reconciledState.found.start.awaited = [] := by decide

theorem test_w_startUp : (after .auditPhase reconciledState).found.mayEnter = true
    ∧ reconciledState.found.start.limit = .running 0 := by decide +kernel

def heldState : State :=
  state { reconciledState.lib with reqs := { lib.reqs with live := [request 1 .mount .held (.volume serialA)] } }

theorem test_w_held : heldState.found.reqs.live = [request 1 .mount .held (.volume serialA)]
    ∧ heldState.found.start.limit = .running 0 := by decide

/-! ### Prompts -/

def messageState : State := withPrompt 15 { prompt .hostMessage false .nothing with deadlineLeft := some 0 }

theorem test_w_messages : messageOk messageBlock = true ∧ ready.lib.freePromptSlot = some 0
    ∧ (state { lib with prompts := { lib.prompts with
        slots := List.replicate 16 (some (prompt .hostMessage false .nothing)) } }).lib.freePromptSlot = none
    ∧ (messageState.lib.prompts.slots.getD 15 none).isSome = true ∧ messageState.lib.prompts.waits = []
    ∧ (messageState.found.posted? 1).map Prod.fst = some 15 := by decide

/-- A posting that a key answers and one that it does not, for each key of R127 but NEXT, and a number of no posting. -/
theorem test_w_keys :
    (∀ k ∈ [PromptKind.accessorFault, .driveAttention, .hostMessage, .periodDue],
      keyValid .accept (prompt k false .nothing) = true ∧ keyValid .done (prompt k false .nothing) = false)
    ∧ (∀ k ∈ [PromptKind.interlock, .manualDismount, .stationRemove], ∀ key ∈ [KeyName.accept, .refuse, .done],
      keyValid key (prompt k false .nothing) = false ∧ keyValid .next (prompt k false .nothing) = true)
    ∧ keyValid .done (prompt .driveAttention true .nothing) = true
    ∧ keyValid .accept (prompt .driveAttention true .nothing) = false
    ∧ (∀ k ∈ [PromptKind.manualMount, .stationInsert, .hostMessage], keyValid .refuse (prompt k true .nothing) = true)
    ∧ messageState.found.posted? 0 = none ∧ messageState.found.posted? 65535 = none := by decide

theorem test_w_answered : (({ prompt .hostMessage false .nothing with answer := some .accept } : Prompt).answer ≠ none)
    ∧ (prompt .hostMessage false .nothing).isRequest = false := by decide

def manualPrompt : Prompt :=
  { prompt .manualMount true { PromptSubject.nothing with tag := some 1 } with deadlineLeft := some 0 }

def manualState : State :=
  state ({ lib with reqs := { lib.reqs with live := [request 1 .mount .manual (.volume serialB)] } }.setPrompt 0
    (some manualPrompt))

theorem test_w_manual : manualState.found.posted? 1 = some (0, manualPrompt)
    ∧ manualState.found.req? 1 = some (request 1 .mount .manual (.volume serialB)) := by decide

/-- The FAULTED drive 15 holds the volume A, and the request of tag 1 waits on its DRIVE-ATTENTION. -/
def attention : Prompt :=
  prompt .driveAttention true { PromptSubject.nothing with tag := some 1, drive := some 15, volume := some serialA }

def attentionRequest : Request :=
  { request 1 .mount .rewinding (.volume serialA) with account := some 7, code := some .driveFault, drive := some 15 }

def attentionState : State :=
  let l := lib.updDrive 15 fun v =>
    { v with defn := some (driveDef (.automated 2)), state := .faulted, serving := some 1, reel := .recorded serialA }
  state (({ l with reqs := { l.reqs with live := [attentionRequest] } }.updVol serialA fun v =>
    { v with state := .onDrive 15, holder := some 1 }).setPrompt 0 (some attention))

theorem test_w_panel : attentionState.found.posted? 1 = some (0, attention)
    ∧ attentionState.found.req? 1 = some attentionRequest ∧ attentionRequest.state ≠ .done
    ∧ attentionState.found.account? 7 = some account7 ∧ account7.manual < 65535
    ∧ (attentionState.found.drive 15).state = .faulted ∧ (attentionState.found.drive 15).serving = some 1
    ∧ (attentionState.found.drive 15).reel = .recorded serialA
    ∧ attentionState.found.vol? serialA = some { volA with state := .onDrive 15, holder := some 1 }
    ∧ attentionState.lib.shape = specShape ∧ ready.found.prompts.lastSent = none := by decide

theorem test_w_panel_others : ∀ e, e ≠ 15 → (attentionState.found.drive e).serving ≠ some 1 := by
  intro e he
  by_cases h : e < 15
  · interval_cases e <;> decide
  · have : attentionState.found.drives.length ≤ e := by
      have : attentionState.found.drives.length = 16 := by decide
      omega
    simp [Lib.drive, List.getD_eq_getElem?_getD, List.getElem?_eq_none this, Drive.powerOn]

def presentedState : State :=
  let p := { prompt .hostMessage false .nothing with reannounceLeft := some 0 }
  state { lib with prompts := { lib.prompts with
    slots := lib.prompts.slots.set 0 (some p), presented := some 1, lastSent := some ⟨p, true⟩ } }

/-- Two messages, of which the second, or neither, is presented. -/
def twoMessages (presented stepped : Option Nat) : State :=
  let l := (lib.setPrompt 0 (some (prompt .hostMessage false .nothing))).setPrompt 15
    (some { prompt .hostMessage false .nothing with posting := 2 })
  state { l with prompts := { l.prompts with presented := presented, stepped := stepped } }

theorem test_w_next :
    let follower (s : State) (m : Nat) : Option Nat :=
      (Lib.entryAfter s.found.presentationOrder.head? m s.found.presentationOrder).map fun x => x.2.posting
    follower (twoMessages none none) 1 = some 2 ∧ (twoMessages none none).found.prompts.presented ≠ some 2
    ∧ follower (twoMessages (some 2) none) 1 = some 2 ∧ (twoMessages (some 2) none).found.prompts.stepped ≠ some 1
    ∧ (twoMessages (some 2) (some 1)).found.prompts.stepped = some 1
    ∧ (twoMessages (some 2) (some 1)).found.prompts.presented = some 2
    ∧ follower (twoMessages (some 2) (some 1)) 2 = some 1
    ∧ ((twoMessages (some 2) (some 1)).found.posted? 1).isSome = true
    ∧ follower presentedState 1 = some 1 ∧ presentedState.found.prompts.presented = some 1 := by decide

/-- A NEXT that finds the following posting presented leaves it (R134); the same NEXT again steps on (R206). -/
theorem test_next_twice :
    let one := after (.keyNext 1) (twoMessages (some 2) none)
    one.lib.prompts.presented = some 2 ∧ (after (.keyNext 1) one).lib.prompts.presented = some 1 := by
  decide +kernel

theorem test_w_presented : presentedState.found.prompts.presented = some 1
    ∧ (presentedState.found.posted? 1).bind (fun x => x.2.reannounceLeft) = some 0
    ∧ presentedState.found.prompts.lastSent.isSome = true := by decide

/-! ### Requests -/

theorem test_w_mount : ready.lib.hostFull = false ∧ ready.lib.account? 7 = some account7 ∧ account7.suspended = false
    ∧ ready.lib.underQuota account7 = true ∧ ready.lib.vol? serialA = some volA ∧ volA.holder = none
    ∧ volA.state = .home ∧ ready.lib.req? 32767 = none ∧ mountFieldsOk mountA = true ∧ volA.ring = true
    ∧ scratchFieldsOk scratchBlock = true ∧ ready.lib.scratchOf 1 = some volC := by decide

theorem test_w_mount_drive : ∃ w ∈ ready.lib.drives, ∃ x, w.defn = some x ∧ 0 ∈ x.paths ∧ 1 ∈ x.densities
    ∧ x.kind ≠ .manual := ⟨idleDrive (.automated 2), by decide, _, rfl, by decide, by decide, by decide⟩

theorem test_w_mount_starting : (inState .starting).lib.start.state = .starting
    ∧ (inState .starting).lib.start.limit = .stopped ∧ reconciledState.lib.start.limit = .running 0 := by decide

def shelfMount : MountBlock := { mountA with serial := serialB, manualAllowed := 1, access := 1, tag := 1 }

theorem test_w_shelf : mountFieldsOk shelfMount = true ∧ ready.lib.vol? serialB = some volB ∧ volB.state = .shelf
    ∧ mountFieldsOk { shelfMount with manualAllowed := 0 } = true
    ∧ (∀ w ∈ ready.lib.drives, ∀ x ∈ w.defn, 7 ∉ x.paths) := by decide

theorem test_w_work : serialA.valid = true ∧ 3 < ready.lib.columns ∧ ready.lib.isAutomated 0 = true
    ∧ ready.lib.cleanNames 0 = false ∧ ready.lib.chooseCleaner = some volK ∧ ready.lib.vol? volK.serial = some volK := by
  decide

theorem test_w_work_interlock : { lib.rail with interlock := true }.interlock = true
    ∧ (linked 1 .none id).lib.hostFull = false ∧ (linked 1 .none id).lib.req? 32767 = none := by decide

/-- Column 1 is nearer to A, column 3 is in reach of B alone. -/
theorem test_w_work_audit : ready.lib.reqs.live = [] ∧ ready.lib.rail.interlock = false
    ∧ (∀ y ∈ [AccId.a, .b], (ready.lib.acc y).state = .idle ∧ (ready.lib.acc y).current = none
        ∧ (ready.lib.acc y).staged = none)
    ∧ ready.lib.inReach .a 1 = true ∧ ready.lib.inReach .b 1 = true
    ∧ Lib.distance (ready.lib.acc .a).pos 1 ≤ Lib.distance (ready.lib.acc .b).pos 1
    ∧ ready.lib.fits .a ⟨0, 1⟩ = true ∧ ready.lib.inReach .b 3 = true ∧ ready.lib.inReach .a 3 = false
    ∧ ready.lib.fits .b ⟨3, 3⟩ = true := by decide

theorem test_w_work_mount : 0 < account7.limit ∧ volA.cls = .priv 7 0 ∧ serialA ∉ ready.lib.cat.scratch
    ∧ volA.homeCell = some 0 ∧ ready.set.paths.getD 0 false = true ∧ (ready.lib.drive 0).state = .idle
    ∧ (ready.lib.drive 0).cleanDue = false ∧ (ready.lib.drive 0).offPending = false
    ∧ (ready.lib.drive 0).defn = some (driveDef (.automated 2)) ∧ (driveDef (.automated 2)).confirmed = true
    ∧ ready.lib.inReach .a 2 = true ∧ (∀ e ∈ List.range 16, e ≠ 0 → ready.lib.driveCol e = none)
    ∧ ready.lib.driveCol 0 = some 2 ∧ ready.lib.drives.length = 16 ∧ ready.lib.cellCol 0 = 0
    ∧ ready.lib.inReach .a 0 = true ∧ ready.lib.inReach .b 0 = false ∧ ready.lib.fits .a ⟨0, 2⟩ = true := by decide

theorem test_w_cancel : (heldVolume .queued).lib.req? 32767 = some (request 32767 .mount .queued (.volume serialA))
    ∧ (heldVolume .queued).lib.handOverOf 32767 = none
    ∧ (heldVolume .queued).lib.vol? serialA = some { volA with holder := some 32767 }
    ∧ (heldVolume .fetching).lib.stagedFor? 32767 = none ∧ (request 32767 .mount .fetching .none).isMount = true
    ∧ ((heldVolume .done).lib.req? 32767).map Request.state = some .done ∧ ready.lib.req? 1 = none := by decide

theorem test_w_dismount :
    ((serving (.mounted ⟨0, 0⟩) .mounted).lib.req? 1).map (fun r => (r.isMount, r.state, r.drive))
      = some (true, .mounted, some 15) ∧ (serving (.mounted ⟨0, 0⟩) .mounted).lib.shape = specShape := by decide

def stalledAudit : Request :=
  { request 1 .audit .queued .none with cursor := some { next := 3, first := 3, last := 3 }, stallLeft := some 0 }

/-- B faulted at the last column: neither accessor reaches column 3. -/
def stalledState : State :=
  state { (lib.updAcc .b fun v => { v with state := .faulted .timeout 3 }) with
    reqs := { lib.reqs with live := [stalledAudit] } }

theorem test_w_stall : stalledState.found.req? 1 = some stalledAudit ∧ stalledState.found.inReach .a 3 = false
    ∧ stalledState.found.inReach .b 3 = false
    ∧ ({ request 1 .mount .queued (.volume serialA) with stallLeft := some 0 } : Request).stallLeft = some 0 := by decide

/-! ### Accessors -/

theorem test_w_restore :
    (withAcc fun v => { v with state := .faulted .timeout 2, query := some ⟨255, .restore⟩ }).found.isFaulted .a = true
    ∧ (withAcc fun v => { v with state := .faulted .timeout 2 }).lib.isFaulted (accOf 0) = true
    ∧ ((withAcc fun v => { v with state := .faulted .timeout 2, query := some ⟨255, .restore⟩ }).lib.acc
        (accOf 0)).query ≠ none
    ∧ ready.lib.isFaulted (accOf 1) = false ∧ ready.lib.rail.interlock = false
    ∧ { lib.rail with interlock := true }.interlock = true ∧ { lib.rail with serviceOpen := true }.serviceOpen = true
    ∧ ((withAcc fun v => { v with state := .halted }).lib.acc .a).query = none
    ∧ ready.found.volInTransit? .a = none ∧ (ready.found.gripperReturn? .a).isNone = true := by decide

/-- Accessor A carries out order 255 for the request of tag 1 with the volume A. -/
def ordered (k : OrderKind) (p : Progress) (r : Request) : State :=
  state { (lib.updAcc .a fun v => { v with
      state := .moving, timer := some 0, counter := 255
      current := some { kind := k, number := some 255, serves := some 1, progress := p, newHome := false } }) with
    reqs := { lib.reqs with live := [r] } }

def picking : State :=
  ordered (.transfer (.cell 0) (some (.drive 0))) .notPicked (request 1 .mount .fetching (.volume serialA))

theorem test_w_picked : (picking.found.acc .a).current.map (fun o => (o.kind, o.number, o.serves))
      = some (.transfer (.cell 0) (some (.drive 0)), some 255, some 1)
    ∧ picking.found.req? 1 = some (request 1 .mount .fetching (.volume serialA))
    ∧ picking.found.vol? serialA = some volA ∧ serialA.valid = true ∧ volA.state = .home ∧ volA.homeCell = some 0
    ∧ picking.found.cell 0 = .filled serialA ∧ normLabel none ≠ some serialA ∧ 1 ≠ 255 := by decide

def placing (d : Place) : State :=
  ordered (.transfer (.gripper .a) (some d)) .picked (request 1 .mount .fetching (.volume serialA))

def placedHyps (d : Place) : Bool :=
  ((placing d).found.acc .a).current.map Order.progress = some .picked
    && (((placing d).found.req? 1).map fun r => (r.cargo, r.origin, r.code, r.state, r.isMount))
        = some (.volume serialA, .link, none, .fetching, true)
    && (placing d).found.vol? serialA = some volA && 7 < (placing d).found.place.cells.length
    && (placing d).lib.shape = specShape

theorem test_w_placed : placedHyps (.drive 15) = true ∧ placedHyps (.cell 7) = true := by decide

def scanning : State :=
  ordered (.scan 0) .notPicked
    { request 1 .audit .moving .none with cursor := some { next := 0, first := 0, last := 3 } }

theorem test_w_scanning : (scanning.found.acc .a).current.map (fun o => (o.kind, o.number)) = some (.scan 0, some 255)
    ∧ scanning.found.cellCol 0 = 0 ∧ scanning.found.cell 0 = .filled serialA ∧ scanning.found.vol? serialA = some volA
    ∧ (scanning.found.req? 1).bind Request.cursor = some { next := 0, first := 0, last := 3 }
    ∧ 3 < scanning.found.columns
    ∧ ((ordered (.yield 3) .notPicked (request 1 .audit .moving .none)).found.acc .a).current.map Order.kind
        = some (.yield 3)
    ∧ ((ordered .home .notPicked (request 1 .audit .moving .none)).found.acc .a).current.map Order.kind = some .home := by
  decide

theorem test_w_auditCancel : scanning.lib.req? 1
      = some { request 1 .audit .moving .none with cursor := some { next := 0, first := 0, last := 3 } }
    ∧ scanning.lib.stagedFor? 1 = none ∧ (request 1 .audit .moving .none).cancelPending = false
    ∧ (3 ≠ 2 ∧ 3 ≠ scanning.found.park .a) := by decide

theorem test_w_linkReset_kept :
    (serving (.mounted ⟨0, 0⟩) .mounted).lib.reqs.live.map (fun r => (r.tag, r.origin, r.state, r.drive))
      = [(1, .link, .mounted, some 15)]
    ∧ ((serving (.mounted ⟨0, 0⟩) .mounted).lib.drive 15).serving = some 1
    ∧ (serving (.mounted ⟨0, 0⟩) .mounted).lib.pickSlot? 1 = none
    ∧ picking.lib.reqs.live = [request 1 .mount .fetching (.volume serialA)] ∧ picking.lib.stagedFor? 1 = none
    ∧ picking.lib.pickSlot? 1 = none ∧ ((picking.lib.acc .a).current.bind Order.serves) = some 1 := by decide

theorem test_w_accessorFault : picking.found.isFaulted .a = false ∧ (picking.found.acc .a).timer = some 0
    ∧ 3 < picking.found.columns
    ∧ ((withAcc fun v => { v with state := .faulted .timeout 2, query := some ⟨255, .restore⟩ }).found.acc .a).query
        = some ⟨255, .restore⟩
    ∧ (∀ q, (ready.found.acc .a).query = some q → q.number ≠ 1) := by
  refine ⟨by decide, by decide, by decide, by decide, ?_⟩
  intro q h; cases h

end Sys2Proof.Tests
end

section
/-! The volume catalogue (chapter 01): what passes the checks of a command, what the commands that only read
answer, and what Enter, Update, Retire and Release do to the records. -/

namespace Sys2Proof.Machine

/-! ## Checks that pass -/

theorem checks_eq_of_forall {cs : List (Bool × Sense × Subject)} (g : Settings) (l : Lib) (k : Applied)
    (h : ∀ c ∈ cs, c.1 = true) : checks cs g l k = k := by
  induction cs with
  | nil => rfl
  | cons c cs ih =>
    obtain ⟨ok, why, about⟩ := c
    obtain ⟨rfl, htail⟩ : ok = true ∧ ∀ c ∈ cs, c.1 = true := by simpa using h
    rw [checks_pass, ih htail]

/-- A command whose checks all hold does its work where the library serves. -/
theorem gated_checks_of_forall {s : State} (hs : s.serving) (who : Gate) (about : Subject) (g : Settings)
    {cs : List (Bool × Sense × Subject)} (k : Applied) (h : ∀ c ∈ cs, c.1 = true) :
    gated who about g s.lib.begin (checks cs g s.lib.begin k) = k := by
  rw [gated_serving who about g s.lib.begin _ hs, checks_eq_of_forall g _ k h]

/-- The same of a catalogue command (R16). -/
theorem catalogueCommand_of_forall {s : State} (hs : s.serving) (serial : Serial) {cs : List (Bool × Sense)}
    (g : Settings) (k : Applied) (h : ∀ c ∈ cs, c.1 = true) : catalogueCommand serial cs g s.lib.begin k = k :=
  gated_checks_of_forall hs _ _ _ _ (by simpa using h)

/-- The checks on a new owner pass where its account exists and is not suspended. -/
theorem ownerChecks_pass {l : Lib} {owner : Option Nat}
    (h : ∀ n, owner = some n → ∃ a, l.account? n = some a ∧ a.suspended = false) :
    ∀ c ∈ ownerChecks l owner, c.1 = true := by
  cases owner with
  | none => simp [ownerChecks]
  | some n =>
    obtain ⟨a, ha, hopen⟩ := h n rfl
    simp [ownerChecks, ha, hopen]

/-- A host command that answers a record and leaves the settings and the records as it finds them. -/
theorem exec_reads (c : Instr) (f : Settings → Lib → Applied) (s : State) (hl : s.live)
    (hc : hostCommand c = some f) (data : List Field)
    (hf : f s.set s.lib.begin = .good s.set s.lib.begin data) :
    exec c s = .next (s.after s.set s.lib.begin (.good data)) :=
  exec_good_quiet c f s hl hc _ _ _ hf rfl

/-! ## The record of Query Request (R204) -/

@[simp] theorem bytesOf_length (width n : Nat) : (bytesOf width n).length = width := by
  induction width generalizing n with
  | zero => rfl
  | succ width ih => simp [bytesOf, ih]

theorem dataBytes_length (fs : List Field) : (dataBytes fs).length = (fs.map Field.width).sum := by
  simp [dataBytes, List.length_flatMap, Field.bytes]

theorem optionFields_one (w : Nat) {α : Type} (o : Option α) (f : α → Nat) :
    optionFields ([w], o.map fun a => [f a]) = [⟨w, (o.map f).getD 0⟩] := by
  cases o <;> rfl

theorem optionFields_two (w w' : Nat) {α : Type} (o : Option α) (f f' : α → Nat) :
    optionFields ([w, w'], o.map fun a => [f a, f' a]) = [⟨w, (o.map f).getD 0⟩, ⟨w', (o.map f').getD 0⟩] := by
  cases o <;> rfl

/-- The value of presence bit `i` (R204). -/
def presenceBit (i : Nat) (present : Bool) : Nat := if present then 2 ^ i else 0

/-- The presence bits are the sum of one bit for each option, in order; the count may begin at any bit `k`. -/
theorem presenceBits_eq_sum (xs : List (List Nat × Option (List Nat))) (k : Nat) :
    2 ^ k * presenceBits xs = ((xs.zipIdx k).map fun x => presenceBit x.2 x.1.2.isSome).sum := by
  induction xs generalizing k with
  | nil => rfl
  | cons x xs ih =>
    have hcons : presenceBits (x :: xs) = 2 * presenceBits xs + if x.2.isSome then 1 else 0 := rfl
    rw [List.zipIdx_cons, List.map_cons, List.sum_cons, ← ih (k + 1), hcons]
    unfold presenceBit
    split <;> ring

/-- The fields of Query Request in the order of R204, each option zero where it is absent. -/
theorem requestFields_layout (r : Request) (posting : Option Nat) :
    requestFields r posting =
      [⟨2, r.tag⟩, ⟨1, r.origin.code⟩, ⟨1, r.kind.code⟩, ⟨1, r.state.code⟩,
       ⟨2, presenceBits (requestOptions r posting)⟩,
       ⟨6, ((Lib.cargoLabel r.cargo).map Serial.key).getD 0⟩, ⟨1, r.drive.getD 0⟩, ⟨1, r.path.getD 0⟩,
       ⟨1, r.density.getD 0⟩, ⟨2, r.account.getD 0⟩, ⟨1, r.priority⟩, ⟨1, (r.access.map Access.code).getD 0⟩,
       ⟨1, (r.manualAllowed.map fun b => if b then 1 else 0).getD 0⟩, ⟨1, (r.route.map Route.code).getD 0⟩,
       ⟨2, r.expiryDays.getD 0⟩, ⟨4, r.arrival⟩, ⟨5, clockValue r.arrived⟩, ⟨5, (r.mountedAt.map clockValue).getD 0⟩,
       ⟨1, (r.source.map placeType).getD 0⟩, ⟨2, (r.source.map placeNumber).getD 0⟩,
       ⟨1, (r.cursor.map Cursor.next).getD 0⟩, ⟨1, (r.cursor.map Cursor.last).getD 0⟩, ⟨2, posting.getD 0⟩,
       ⟨1, if r.cancelPending then 1 else 0⟩, ⟨1, (r.code.map Code.code).getD 0⟩, ⟨1, 0⟩] := by
  simp [requestFields, requestOptions, optionFields_one, optionFields_two, flagField]

/-- The record of Query Request has 48 bytes (R204). -/
theorem requestFields_length (r : Request) (posting : Option Nat) :
    (dataBytes (requestFields r posting)).length = 48 := by
  simp [dataBytes_length, requestFields_layout]

/-- The presence bits of Query Request, by name (R204). -/
theorem presenceBits_requestOptions (r : Request) (posting : Option Nat) :
    presenceBits (requestOptions r posting) =
      presenceBit 0 (Lib.cargoLabel r.cargo).isSome + presenceBit 1 r.drive.isSome + presenceBit 2 r.path.isSome
        + presenceBit 3 r.density.isSome + presenceBit 4 r.account.isSome + presenceBit 5 r.access.isSome
        + presenceBit 6 r.manualAllowed.isSome + presenceBit 7 r.route.isSome + presenceBit 8 r.expiryDays.isSome
        + presenceBit 9 r.mountedAt.isSome + presenceBit 10 r.source.isSome + presenceBit 11 r.cursor.isSome
        + presenceBit 12 posting.isSome + presenceBit 13 r.code.isSome := by
  have hsum := presenceBits_eq_sum (requestOptions r posting) 0
  rw [pow_zero, one_mul] at hsum
  rw [hsum]
  simp only [requestOptions, List.zipIdx_cons, List.zipIdx_nil, List.map_cons, List.map_nil, List.sum_cons,
    List.sum_nil, Option.isSome_map, Nat.add_assoc, Nat.add_zero, Nat.reduceAdd]

/-! ## The commands that only read -/

theorem exec_queryVolume {s : State} (hl : s.live) (hs : s.serving) {serial : Serial} {v : Volume}
    (hserial : serial.valid = true) (hv : s.lib.vol? serial = some v) :
    exec (.queryVolume serial) s = .next (s.after s.set s.lib.begin (.good (volumeFields v))) := by
  refine exec_reads _ _ s hl rfl _ ?_
  unfold cmdQueryVolume
  rw [catalogueCommand_of_forall hs _ _ _ (by simp [hserial, hv])]
  simp [hv]

theorem exec_queryRequest {s : State} (hl : s.live) (hs : s.serving) {tag : Nat} {r : Request} (hlo : 1 ≤ tag)
    (hhi : tag ≤ 65535) (hr : s.lib.req? tag = some r) :
    exec (.queryRequest tag) s = .next (s.after s.set s.lib.begin
      (.good (requestFields r ((s.lib.requestPrompt? tag).map fun x => x.2.posting)))) := by
  refine exec_reads _ _ s hl rfl _ ?_
  unfold cmdQueryRequest
  rw [gated_checks_of_forall hs _ _ _ _ (by simp [hlo, hhi])]
  simp only [begin_req?, hr]
  rfl

theorem exec_queryDrive {s : State} (hl : s.live) (hs : s.serving) {d : Nat} (hd : d < 16) :
    exec (.queryDrive d) s = .next (s.after s.set s.lib.begin (.good (driveFields s.set (s.lib.drive d)))) := by
  refine exec_reads _ _ s hl rfl _ ?_
  unfold cmdQueryDrive
  rw [gated_checks_of_forall hs _ _ _ _ (by simp [Config.drives, hd]), begin_drive]

/-- Only the reading of an ANSWERED message changes a slot (R143). -/
theorem exec_queryPrompt {s : State} (hl : s.live) (hs : s.serving) {k : Nat} (hk : k < 16)
    (hp : answered (s.lib.prompts.slots.getD k none) = false) :
    exec (.queryPrompt k) s
      = .next (s.after s.set s.lib.begin (.good (promptFields (s.lib.prompts.slots.getD k none)))) := by
  refine exec_reads _ _ s hl rfl _ ?_
  unfold cmdQueryPrompt
  dsimp only
  rw [gated_checks_of_forall hs _ _ _ _ (by simp [Config.promptSlots, hk]),
    Lib.begin_prompts, hp, if_neg Bool.false_ne_true]

theorem exec_listVolumes {s : State} (hl : s.live) (hs : s.serving) {start : Serial} {state cls owner : Nat}
    (hstart : start.valid = true ∨ start = Serial.blank) (hstate : state ≤ 6) (hcls : cls ≤ 3)
    (howner : owner ≤ 9999) :
    exec (.listVolumes start state cls owner) s = .next (s.after s.set s.lib.begin
      (.good (catalogueFields s.lib (s.lib.cat.vols.filter (listMatches start state cls owner))))) := by
  refine exec_reads _ _ s hl rfl _ ?_
  unfold cmdListVolumes
  rw [catalogueCommand_of_forall hs _ _ _ (by simp [hstart.symm, hstate, hcls, howner])]
  rfl

theorem exec_listRequests {s : State} (hl : s.live) (hs : s.serving) {state start : Nat} (hstate : state ≤ 12)
    (hstart : start ≤ 4294967295) :
    exec (.listRequests state start) s
      = .next (s.after s.set s.lib.begin (.good (listFields (s.lib.listed state start)))) := by
  refine exec_reads _ _ s hl rfl _ ?_
  unfold cmdListRequests
  rw [gated_checks_of_forall hs _ _ _ _ (by simp [max32, hstate, hstart])]
  rfl

theorem exec_readLinks {s : State} (hl : s.live) (hs : s.serving) :
    exec .readLinks s = .next (s.after s.set s.lib.begin (.good (linkFields s.set.links))) :=
  exec_reads _ _ s hl rfl _ (gated_checks_of_forall hs (cs := []) _ _ _ _ (by simp))

/-- Settles O22: each command answers by its lemma above; the 48 bytes of Query Request are those of R204. -/
theorem queriesChangeNothing : Obligations.QueriesChangeNothing := by
  unfold Obligations.QueriesChangeNothing
  intro s hl hs answers bit clock place
  refine ⟨fun serial v => exec_queryVolume hl hs, fun tag r hlo hhi hr => ?_,
    fun d => exec_queryDrive hl hs, fun k => exec_queryPrompt hl hs,
    fun start state cls owner => exec_listVolumes hl hs, fun state start => exec_listRequests hl hs,
    exec_readLinks hl hs⟩
  intro posting label data
  have hdata : requestFields r posting = data := by
    have hplace : ∀ p, place p = (placeType p, placeNumber p) := by rintro (_ | _ | _ | ⟨_ | _⟩) <;> rfl
    have htype : (r.source.map placeType).getD 0 = ((r.source.map place).map Prod.fst).getD 0 := by
      cases r.source <;> simp [hplace]
    have hnumber : (r.source.map placeNumber).getD 0 = ((r.source.map place).map Prod.snd).getD 0 := by
      cases r.source <;> simp [hplace]
    have haccess : (r.access.map Access.code).getD 0 = match r.access with
        | none => 0
        | some .read => 1
        | some .write => 2 := by rcases r.access with _ | _ | _ <;> rfl
    have hroute : (r.route.map Route.code).getD 0 = match r.route with
        | none => 0
        | some .library => 1
        | some .manualDrive => 2
        | some .station => 3 := by rcases r.route with _ | _ | _ | _ <;> rfl
    have hmanual : (r.manualAllowed.map fun b => if b then 1 else 0).getD 0
        = if r.manualAllowed = some true then 1 else 0 := by rcases r.manualAllowed with _ | _ | _ <;> rfl
    rw [requestFields_layout, presenceBits_requestOptions, htype, hnumber, haccess, hroute, hmanual]
    rfl
  exact ⟨hdata ▸ exec_queryRequest hl hs hlo hhi hr, hdata ▸ requestFields_length r posting⟩

/-! ## Enter Volume and Retire Volume -/

theorem find?_insertBy_other {α : Type} (lt : α → α → Bool) (p : α → Bool) (x : α) (xs : List α) (hx : p x = false) :
    (insertBy lt x xs).find? p = xs.find? p := by
  induction xs with
  | nil => simp [insertBy, hx]
  | cons y ys ih =>
    unfold insertBy
    split
    · simp [List.find?_cons, ih]
    · simp [hx]

namespace Lib

theorem vol?_addVol_other (l : Lib) (v : Volume) {x : Serial} (hx : x ≠ v.serial) :
    (l.addVol v).vol? x = l.vol? x :=
  find?_insertBy_other _ _ _ _ (by simpa using hx.symm)

theorem vol?_dropVol_self (l : Lib) (s : Serial) : (l.dropVol s).vol? s = none := by
  simp [vol?, dropVol]

theorem vol?_dropVol_other (l : Lib) {s x : Serial} (hx : x ≠ s) : (l.dropVol s).vol? x = l.vol? x := by
  unfold vol? dropVol
  rw [List.find?_filter]
  congr 1
  funext v
  by_cases hv : v.serial = x <;> simp [hv, hx]

/-- A prompt operation leaves every record of the catalogue. -/
theorem vol?_of_promptsOnly {l m : Lib} (h : PromptsOnly l m) (x : Serial) : m.vol? x = l.vol? x := by
  unfold vol?; rw [h.cat]

/-- Retire Volume takes out the record; what else it does is to the prompts. -/
theorem retire_only (g : Settings) (s : Serial) (l : Lib) : PromptsOnly (l.dropVol s) (l.retire g s) :=
  (withdrawNotice_only g _ _ _).trans (withdrawNotice_only g _ _ _)

/-- Update Volume changes the record; what else it does is to the prompts. -/
theorem updateVolume_only (g : Settings) (s : Serial) (f : UpdateBlock) (l : Lib) :
    PromptsOnly (l.updVol s (updatedVolume f)) (l.updateVolume g s f) := by
  unfold updateVolume
  dsimp only
  split
  · exact withdrawNotice_only g _ _ _
  · exact .refl _

/-- Without a cleaner's uses left set above 0, Update Volume changes the record alone. -/
theorem updateVolume_eq_updVol (g : Settings) (s : Serial) (f : UpdateBlock) (l : Lib)
    (h : f.uses.flag = 0 ∨ f.uses.value = 0) : l.updateVolume g s f = l.updVol s (updatedVolume f) := by
  unfold updateVolume
  rcases h with h | h <;> simp [Change.named, h]

end Lib

theorem exec_enterVolume {f : EnterBlock} {cls : VolClass} {s : State} (hl : s.live) (hs : s.serving)
    (hcls : enterClass? f = some cls) (hok : enterFieldsOk f = true) (hnew : s.lib.vol? f.serial = none)
    (hroom : s.lib.cat.vols.length < 4096)
    (howner : ∀ n, cls.owner? = some n → ∃ a, s.lib.account? n = some a ∧ a.suspended = false) :
    exec (.enterVolume f) s = .next (s.after s.set (s.lib.begin.addVol (enteredVolume f cls)) (.good [])) := by
  refine exec_good_quiet _ _ s hl rfl _ _ _ ?_ rfl
  have hchecks := ownerChecks_pass (l := s.lib.begin) howner
  unfold cmdEnterVolume
  simp only [hcls]
  rw [catalogueCommand_of_forall hs]
  simpa [hok, hnew, Lib.catalogueRoom, Config.volumeRecords, hroom] using hchecks

theorem exec_retireVolume {serial : Serial} {v : Volume} {s : State} (hl : s.live) (hs : s.serving)
    (hserial : serial.valid = true) (hv : s.lib.vol? serial = some v) (hfree : v.holder = none)
    (haway : v.state = .shelf ∨ v.state = .missing) :
    exec (.retireVolume serial) s = .next (s.after s.set (s.lib.begin.retire s.set serial) (.good [])) := by
  refine exec_good_quiet _ _ s hl rfl _ _ _ ?_ (Lib.retire_only _ _ _).notes
  unfold cmdRetireVolume
  dsimp only
  rw [catalogueCommand_of_forall hs _ _ _ (by simp [hserial, hv, hfree, haway])]

/-- Settles O23: the record is put in its place in the catalogue, or taken out of it. -/
theorem enterAndRetireVolume : Obligations.EnterAndRetireVolume := by
  unfold Obligations.EnterAndRetireVolume
  constructor
  · intro f cls s hl hs hcls hok hnew hroom howner
    exact ⟨_, exec_enterVolume hl hs hcls hok hnew hroom howner, rfl,
      Lib.vol?_addVol_self s.lib.begin (enteredVolume f cls) hnew,
      fun x hx => Lib.vol?_addVol_other s.lib.begin (enteredVolume f cls) hx⟩
  · intro serial v s hl hs hserial hv hfree haway
    have honly := Lib.retire_only s.set serial s.lib.begin
    refine ⟨_, exec_retireVolume hl hs hserial hv hfree haway, ?_, ?_, ?_, ?_, fun x hx => ?_⟩
    · rw [honly.cat]; exact honly
    · rw [honly.cat]; rfl
    · rw [honly.cat]; rfl
    · rw [Lib.vol?_of_promptsOnly honly, Lib.vol?_dropVol_self]
    · rw [Lib.vol?_of_promptsOnly honly, Lib.vol?_dropVol_other _ hx, begin_vol?]

/-! ## Update Volume -/

theorem exec_updateVolume {serial : Serial} {f : UpdateBlock} {v : Volume} {s : State} (hl : s.live) (hs : s.serving)
    (hserial : serial.valid = true) (hok : updateFieldsOk f = true) (hv : s.lib.vol? serial = some v)
    (hfits : updateFits f v = true) (hfree : f.density.named = true ∨ f.uses.named = true → v.holder = none)
    (howner : f.owner.named = true → ∃ a, s.lib.account? f.owner.value = some a ∧ a.suspended = false) :
    exec (.updateVolume serial f) s = .next (s.after s.set (s.lib.begin.updateVolume s.set serial f) (.good [])) := by
  refine exec_good_quiet _ _ s hl rfl _ _ _ ?_ (Lib.updateVolume_only _ _ _ _).notes
  have hchecks : ∀ c ∈ ownerChecks s.lib.begin (if f.owner.named then some f.owner.value else none), c.1 = true := by
    refine ownerChecks_pass fun n hn => ?_
    obtain ⟨hnamed, rfl⟩ : f.owner.named = true ∧ f.owner.value = n := by simpa using hn
    exact howner hnamed
  have hidle : ((!f.density.named && !f.uses.named) || v.holder.isNone) = true := by
    by_cases hnamed : f.density.named = true ∨ f.uses.named = true
    · simp [hfree hnamed]
    · obtain ⟨hdensity, huses⟩ := not_or.1 hnamed
      simp [hdensity, huses]
  unfold cmdUpdateVolume
  dsimp only
  rw [catalogueCommand_of_forall hs]
  simpa [hserial, hok, hv, hfits, hidle] using hchecks

/-- Settles O24: one record is changed as its set names it, and a notice withdrawn at most. -/
theorem updateVolumeChangesNamed : Obligations.UpdateVolumeChangesNamed := by
  unfold Obligations.UpdateVolumeChangesNamed
  intro serial f v s hl hs hserial hok hv hfits hfree howner
  have honly := Lib.updateVolume_only s.set serial f s.lib.begin
  refine ⟨_, exec_updateVolume hl hs hserial hok hv hfits hfree howner, ?_, ?_, ?_, fun huses => ?_, ?_,
    fun x hx => ?_⟩
  · rw [honly.cat]; exact honly
  · rw [honly.cat]; rfl
  · rw [honly.cat]; rfl
  · rw [Lib.updateVolume_eq_updVol _ _ _ _ huses]; exact ⟨rfl, rfl⟩
  · rw [Lib.vol?_of_promptsOnly honly, Lib.vol?_updVol_self _ _ _ (by intro v; rfl), begin_vol?, hv]
    cases hc : v.cls <;> simp [updatedVolume, updatedClass, Change.named, hc]
  · rw [Lib.vol?_of_promptsOnly honly, Lib.vol?_updVol_other _ _ _ _ hx (by intro v; rfl), begin_vol?]

/-! ## Release To Scratch -/

/-- A record stands on the scratch list, once it has been brought up to date for it, when it belongs there (R7). -/
theorem Lib.mem_scratchAfter {l : Lib} {s : Serial} {v : Volume} (h : l.vol? s = some v) :
    s ∈ l.scratchAfter s ↔ v.onScratch = true := by
  unfold Lib.scratchAfter
  simp only [h]
  cases hon : v.onScratch with
  | false => simp
  | true => by_cases hin : s ∈ l.cat.scratch <;> simp [hin]

theorem exec_releaseToScratch {serial : Serial} {force owner expiry : Nat} {v : Volume} {s : State} (hl : s.live)
    (hs : s.serving) (hserial : serial.valid = true) (hv : s.lib.vol? serial = some v)
    (hcls : v.cls = .priv owner expiry) (hfree : v.holder = none)
    (hforce : force = 1 ∨ (force = 0 ∧ s.set.clockSet = true ∧ expiry ≤ s.set.clock.day)) :
    exec (.releaseToScratch serial force) s = .next (s.after s.set
      ((s.lib.begin.changeVol s.set serial fun v => { v with cls := .scratch }).settle s.set) (.good [])) := by
  refine exec_good _ _ s hl rfl _ _ _ ?_
  unfold cmdReleaseToScratch
  dsimp only
  rw [catalogueCommand_of_forall hs]
  rcases hforce with rfl | ⟨rfl, hclock, hday⟩
  · simp [hserial, hv, hcls, hfree, VolClass.code]
  · simp [hserial, hv, hcls, hfree, VolClass.code, hclock, expired, VolClass.expiry?, hday]

/-- Settles O25: the record changes its class, and the scratch list is brought up to date for it. -/
theorem releaseToScratchFrees : Obligations.ReleaseToScratchFrees := by
  unfold Obligations.ReleaseToScratchFrees
  intro serial force v owner expiry s hl hs hserial hv hcls hfree hforce
  refine ⟨_, exec_releaseToScratch hl hs hserial hv hcls hfree hforce, Lib.changeVol_only _ _ _ _, ?_, ?_,
    fun x hx => ?_⟩
  · rw [Lib.vol?_changeVol_self _ _ _ _ (by intro v; rfl), begin_vol?, hv]; rfl
  · have hfound : (s.lib.begin.updVol serial fun v => { v with cls := .scratch }).vol? serial
        = some { v with cls := .scratch } := by
      rw [Lib.vol?_updVol_self _ _ _ (by intro v; rfl), begin_vol?, hv]; rfl
    rw [Lib.changeVol_scratch, Lib.mem_scratchAfter hfound]
    simp [Volume.onScratch, hfree]
  · rw [Lib.vol?_changeVol_other _ _ _ _ _ hx (by intro v; rfl), begin_vol?]

end Sys2Proof.Machine
end

section
/-! The cells and the station (chapter 02): Set Cell, Scan Station, the SLOT report and the reports of the station
door. -/

namespace Sys2Proof.Machine

/-! ## A host command that answers from the records it leaves -/

/-- A host command that ends GOOD with the data-in read from the records as the whole step leaves them (R196). -/
theorem exec_answers (c : Instr) (f : Settings → Lib → Applied) (s : State) (hl : s.live)
    (hc : hostCommand c = some f) (l : Lib) (data : Lib → List Field)
    (hf : f s.set s.lib.begin = { set := s.set, lib := l, reply := fun l => .good (data l) }) :
    exec c s = .next (s.after s.set (l.settle s.set) (.good (data (l.settle s.set)))) := by
  rw [exec_hostCommand c f s hc, hostStep_live f s hl, hf]

/-! ## Set Cell -/

namespace Lib

/-- A cell put back as it is frees nothing. -/
theorem setCell_same (l : Lib) {n : Nat} (hn : n < l.place.cells.length) : l.setCell n (l.cell n) = l := by
  have hcells : l.place.cells.set n (l.cell n) = l.place.cells := by
    simp [cell, List.getD_eq_getElem?_getD, hn]
  unfold setCell
  simp [hcells]

theorem setCell_eq_of_not_free (l : Lib) (n : Nat) {c : Cell} (hc : c ≠ .empty none) :
    l.setCell n c = { l with place := { l.place with cells := l.place.cells.set n c } } := by
  unfold setCell
  simp [hc]

theorem setCell_eq_of_freed (l : Lib) {n : Nat} (hn : l.cell n ≠ .empty none) :
    l.setCell n (.empty none)
      = notePlaceFreed { l with place := { l.place with cells := l.place.cells.set n (.empty none) } } := by
  unfold setCell
  simp [hn]

end Lib

/-- The three checks of Set Cell (R31). -/
def setCellChecks (n action : Nat) (l : Lib) : List (Bool × Sense × Subject) :=
  [(n < l.place.cells.length && action ≤ 2, .invalidField, .none),
   (action ≠ 1 || l.cell n = .foreign || l.cell n = .empty none, .cellState, .cell n),
   (action ≠ 2 || l.cell n = .disabled, .cellState, .cell n)]

/-- The work of Set Cell, its checks having passed. -/
def setCellWork (n action : Nat) (g : Settings) (l : Lib) : Applied :=
  { set := g, lib := l.setCell n (cellAfter action (l.cell n)), reply := fun l => .good (cellFields l n) }

theorem cmdSetCell_serving {s : State} (hs : s.serving) (n action : Nat) :
    cmdSetCell n action s.set s.lib.begin
      = checks (setCellChecks n action s.lib.begin) s.set s.lib.begin (setCellWork n action s.set s.lib.begin) :=
  gated_serving _ _ _ _ _ hs

theorem exec_setCell_of_checks {n action : Nat} {s : State} (hl : s.live) (hs : s.serving)
    (h : ∀ c ∈ setCellChecks n action s.lib.begin, c.1 = true) :
    let l := (s.lib.begin.setCell n (cellAfter action (s.lib.cell n))).settle s.set
    exec (.setCell n action) s = .next (s.after s.set l (.good (cellFields l n))) := by
  refine exec_answers _ _ s hl rfl _ (cellFields · n) ?_
  rw [cmdSetCell_serving hs, checks_eq_of_forall _ _ _ h]
  rfl

theorem exec_setCell_refused {n action : Nat} {s : State} (hl : s.live) (hs : s.serving) (why : Sense)
    (about : Subject)
    (h : checks (setCellChecks n action s.lib.begin) s.set s.lib.begin (setCellWork n action s.set s.lib.begin)
      = .refuse s.set s.lib.begin why about) :
    exec (.setCell n action) s = .next (s.after s.set s.lib.begin (.check why about)) :=
  exec_refuse _ _ s hl rfl _ _ ((cmdSetCell_serving hs n action).trans h)

/-- Settles O26: the checks in order, and what the cell put in place frees. -/
theorem setCellChangesOneCell : Obligations.SetCellChangesOneCell := by
  unfold Obligations.SetCellChangesOneCell
  refine ⟨fun n action s hl => ⟨fun hu => ?_, fun hf => ?_, fun hs hrange => ?_⟩, ?_⟩
  · exact exec_refuse _ _ s hl rfl _ _ (gated_unformatted _ s.set s.lib.begin _ hu)
  · exact exec_busy _ _ s hl rfl (gated_formatting _ _ s.set s.lib.begin _ hf (by decide))
  · refine exec_setCell_refused hl hs _ _ ?_
    have hfail : (decide (n < s.lib.place.cells.length) && decide (action ≤ 2)) = false := by
      simp only [Bool.and_eq_false_iff, decide_eq_false_iff_not]
      omega
    unfold setCellChecks
    rw [Lib.begin_place, hfail, checks_fail]
  intro n s hl hs hn put
  refine ⟨?_, fun hcell => ?_, fun hforeign hempty => ?_, fun hcell => ?_, fun hcell => ?_⟩
  · have hread := exec_setCell_of_checks (n := n) (action := 0) hl hs (by simp [setCellChecks, hn])
    rwa [show cellAfter 0 (s.lib.cell n) = s.lib.begin.cell n from rfl, Lib.setCell_same s.lib.begin hn,
      Lib.settle_begin] at hread
  · have hdisable := exec_setCell_of_checks (n := n) (action := 1) hl hs
      (by rcases hcell with h | h <;> simp [setCellChecks, hn, h])
    rwa [show cellAfter 1 (s.lib.cell n) = .disabled from rfl,
      Lib.setCell_eq_of_not_free s.lib.begin n (by decide), Lib.settle_quiet _ _ rfl] at hdisable
  · exact exec_setCell_refused hl hs _ _ (by simp [setCellChecks, hn, hforeign, hempty])
  · have henable := exec_setCell_of_checks (n := n) (action := 2) hl hs (by simp [setCellChecks, hn, hcell])
    rwa [show cellAfter 2 (s.lib.cell n) = .empty none from rfl,
      Lib.setCell_eq_of_freed s.lib.begin (by rw [begin_cell, hcell]; decide)] at henable
  · exact exec_setCell_refused hl hs _ _ (by simp [setCellChecks, hn, hcell])

/-! ## The station scan -/

/-- The library has its eight slots ("Principal figures"). -/
theorem slots_length_of_shape {l : Lib} (h : l.shape = specShape) : l.place.slots.length = 8 :=
  congrArg Shape.slots h

theorem found_shape {s : State} (h : s.lib.shape = specShape) : s.found.shape = specShape :=
  (Lib.opened_shape s.set s.lib).trans h

namespace Lib

/-- The records after the scan has settled the slots below `k` (R36). -/
def scannedTo (g : Settings) (l : Lib) (k : Nat) : Lib := (List.range k).foldl (fun l k => l.settleSlot g k) l

@[simp] theorem scannedTo_succ (g : Settings) (l : Lib) (k : Nat) :
    l.scannedTo g (k + 1) = (l.scannedTo g k).settleSlot g k := by
  simp [scannedTo, List.range_succ]

theorem scan_eq_scannedTo (g : Settings) (l : Lib) : l.scan g = l.scannedTo g 8 := rfl

theorem scannedTo_shape (g : Settings) (l : Lib) (k : Nat) : (l.scannedTo g k).shape = l.shape :=
  foldl_shape _ (settleSlot_shape g) _ l

/-- The scan settles its slots in ascending order, each by the table of R37. -/
theorem scannedTo_settled (g : Settings) {l : Lib} (h : l.shape = specShape) {k : Nat} (hk : k < 8) :
    (l.scannedTo g k).SlotSettled (l.scannedTo g (k + 1)) k := by
  rw [scannedTo_succ]
  refine settleSlot_settled g _ k ?_
  rw [slots_length_of_shape ((scannedTo_shape g l k).trans h)]
  exact hk

end Lib

theorem exec_scanStation {s : State} (hl : s.live) (hready : s.lib.start.state = .ready)
    (hdoor : s.lib.place.doorOpen = false) :
    let l := (s.lib.begin.scan s.set).settle s.set
    exec .scanStation s = .next (s.after s.set l (.good (stationFields l))) := by
  refine exec_answers _ _ s hl rfl _ stationFields ?_
  unfold cmdScanStation
  rw [gated_checks_of_forall (.inl hready)]
  simp [hready, hdoor]

/-- Settles O27: the scan is a fold over the slots, whose every step is the table of R37. -/
theorem scanStationSettlesSlots : Obligations.ScanStationSettlesSlots := by
  unfold Obligations.ScanStationSettlesSlots
  intro s hl hshape
  refine ⟨fun hready hdoor => ?_, fun hstarting => ?_, fun hready hdoor => ?_⟩
  · refine exec_refuse _ _ s hl rfl _ _ ?_
    unfold cmdScanStation
    rw [gated_serving _ _ s.set s.lib.begin _ (.inl hready)]
    simp [hready, hdoor]
  · refine exec_refuse _ _ s hl rfl _ _ ?_
    unfold cmdScanStation
    rw [gated_serving _ _ s.set s.lib.begin _ (.inr hstarting)]
    simp [hstarting]
  · exact ⟨s.lib.begin.scannedTo s.set, rfl, fun k hk => Lib.scannedTo_settled s.set (l := s.lib.begin) hshape hk,
      exec_scanStation hl hready hdoor⟩

/-! ## SLOT -/

theorem exec_slot {k : Nat} (seen : Reading) {s : State} (hl : s.live) (hk : k < 8) :
    exec (.slot k seen) s = .next (s.settled (s.found.slotReport s.set k seen)) :=
  exec_event _ _ s hl rfl _ (if_pos hk)

namespace Lib

theorem slotReport_filled_of_empty (g : Settings) {k : Nat} (raw : Option Serial) {l : Lib} (h : l.slot k = .empty) :
    l.slotReport g k (.filled raw) = l.setSlot g k (.inbound (normLabel raw)) := by
  simp [slotReport, h, slotLabel?]

theorem slotReport_empty_of_unclaimed (g : Settings) {k : Nat} {l : Lib}
    (h : (∃ x, l.slot k = .inbound x) ∨ ∃ x y, l.slot k = .rejected x y) :
    l.slotReport g k .empty = l.setSlot g k .empty := by
  rcases h with ⟨x, h⟩ | ⟨x, y, h⟩ <;> simp [slotReport, h]

theorem slotReport_empty_of_empty (g : Settings) {k : Nat} {l : Lib} (h : l.slot k = .empty) :
    l.slotReport g k .empty = l := by
  simp [slotReport, h]

/-- A slot changed: its record and no other; the catalogue, the drives and the requests stand. -/
theorem setSlot_changes (g : Settings) {k : Nat} (x : Slot) {l : Lib} (hk : k < l.place.slots.length) :
    (l.setSlot g k x).slot k = x ∧ (∀ j, j ≠ k → (l.setSlot g k x).slot j = l.slot j)
      ∧ (l.setSlot g k x).cat = l.cat ∧ (l.setSlot g k x).drives = l.drives
      ∧ (l.setSlot g k x).reqs.live = l.reqs.live :=
  ⟨slot_setSlot_self g k x l hk, fun j hj => slot_setSlot_other g k j x l hj, by simp, by simp, by simp⟩

end Lib

/-- Settles O29: the report changes the one slot, or nothing. -/
theorem slotReportRecords : Obligations.SlotReportRecords := by
  unfold Obligations.SlotReportRecords
  intro k s hl hshape hk
  have hlen : k < s.found.place.slots.length := by rw [slots_length_of_shape (found_shape hshape)]; exact hk
  refine ⟨fun raw hslot => ⟨_, exec_slot _ hl hk, ?_⟩, fun hslot => ⟨_, exec_slot _ hl hk, ?_⟩, fun hslot => ?_⟩
  · rw [Lib.slotReport_filled_of_empty s.set raw hslot]
    exact Lib.setSlot_changes s.set _ hlen
  · rw [Lib.slotReport_empty_of_unclaimed s.set hslot]
    exact Lib.setSlot_changes s.set _ hlen
  · exact exec_event_quiet _ _ s hl rfl _ ((if_pos hk).trans (Lib.slotReport_empty_of_empty s.set hslot))
      (found_notes s)

/-! ## The orders in hand and the station lock -/

/-- `m` differs from `l` in the accessors, the longest waiter, the station lock and the messages sent at most. -/
def OrdersOnly (l m : Lib) : Prop :=
  m = { l with
    rail := { l.rail with accA := m.rail.accA, accB := m.rail.accB, firstWaiter := m.rail.firstWaiter }
    place := { l.place with locked := m.place.locked }, out := m.out }

theorem OrdersOnly.refl (l : Lib) : OrdersOnly l l := rfl

theorem OrdersOnly.trans {l m n : Lib} (h : OrdersOnly l m) (k : OrdersOnly m n) : OrdersOnly l n := by
  unfold OrdersOnly at *; rw [k, h]

theorem OrdersOnly.fixed {l m : Lib} (h : OrdersOnly l m) : m.fixed = l.fixed := by
  unfold OrdersOnly at h; rw [h]; rfl

theorem OrdersOnly.notes {l m : Lib} (h : OrdersOnly l m) : m.notes = l.notes := by
  unfold OrdersOnly at h; rw [h]

theorem OrdersOnly.slots {l m : Lib} (h : OrdersOnly l m) : m.place.slots = l.place.slots := by
  unfold OrdersOnly at h; rw [h]

namespace Lib

theorem updAcc_only (x : AccId) (f : Accessor → Accessor) (l : Lib) : OrdersOnly l (l.updAcc x f) := by
  cases x <;> rfl

theorem updateLock_only (l : Lib) : OrdersOnly l l.updateLock := by
  unfold updateLock; dsimp only
  split
  · rfl
  · split <;> rfl

theorem sendOrder_only (g : Settings) (x : AccId) (l : Lib) : OrdersOnly l (l.sendOrder g x) := by
  refine (updateLock_only l).trans ?_
  unfold sendOrder; dsimp only
  split
  · rfl
  · split
    · rfl
    · exact (updAcc_only x _ _).trans rfl

theorem goOn_only (g : Settings) (x : AccId) (l : Lib) : OrdersOnly l (l.goOn g x) := by
  unfold goOn; split
  · exact sendOrder_only g x l
  · rfl

theorem stopAtStation_only (x : AccId) (l : Lib) : OrdersOnly l (l.stopAtStation x) := by
  unfold stopAtStation; split
  · exact (updAcc_only x _ _).trans rfl
  · rfl

end Lib

/-! ## The station door -/

namespace Lib

/-- The door as reported. -/
def withDoor (l : Lib) (isOpen : Bool) : Lib := { l with place := { l.place with doorOpen := isOpen } }

@[simp] theorem withDoor_notes (l : Lib) (b : Bool) : (l.withDoor b).notes = l.notes := rfl
@[simp] theorem withDoor_slots (l : Lib) (b : Bool) : (l.withDoor b).place.slots = l.place.slots := rfl
@[simp] theorem withDoor_fixed (l : Lib) (b : Bool) : (l.withDoor b).fixed = { l.fixed with doorOpen := b } := rfl

theorem doorOpened_of_closed (g : Settings) {l : Lib} (h : l.place.doorOpen = false) :
    OrdersOnly (l.withDoor true) (l.doorOpened g) := by
  unfold doorOpened
  rw [h, if_neg Bool.false_ne_true]
  exact (stopAtStation_only .a _).trans (stopAtStation_only .b _)

/-- The door closes: the lock and the orders that waited at the station follow, and the source is raised (R34). -/
theorem doorClosed_of_open (g : Settings) {l : Lib} (h : l.place.doorOpen = true) :
    ∃ m, OrdersOnly (l.withDoor false) m ∧ l.doorClosed g = (m.raisePlain .stationDoorClosed).wake := by
  unfold doorClosed
  rw [h, if_pos rfl]
  exact ⟨_, ((updateLock_only _).trans (goOn_only g .a _)).trans (goOn_only g .b _), rfl⟩

theorem doorOpened_of_open (g : Settings) {l : Lib} (h : l.place.doorOpen = true) : l.doorOpened g = l := if_pos h

theorem doorClosed_of_closed (g : Settings) {l : Lib} (h : l.place.doorOpen = false) : l.doorClosed g = l :=
  if_neg (by simp [h])

theorem doorClosed_fixed (g : Settings) {l : Lib} (h : l.place.doorOpen = true) :
    (l.doorClosed g).fixed = { l.fixed with doorOpen := false } := by
  obtain ⟨m, hm, hclosed⟩ := doorClosed_of_open g h
  rw [hclosed, wake_fixed, raisePlain_fixed, hm.fixed, withDoor_fixed]

theorem doorClosed_notes (g : Settings) {l : Lib} (h : l.place.doorOpen = true) :
    (l.doorClosed g).notes = { l.notes with
      raised := l.notes.raised ++ [{ source := .stationDoorClosed, drive := none, columns := none, tag := none }]
      wake := true } := by
  obtain ⟨m, hm, hclosed⟩ := doorClosed_of_open g h
  rw [hclosed, wake_notes, raisePlain_notes, hm.notes, withDoor_notes]

theorem doorClosed_slot (g : Settings) {l : Lib} (h : l.place.doorOpen = true) (k : Nat) :
    (l.doorClosed g).slot k = l.slot k := by
  obtain ⟨m, hm, hclosed⟩ := doorClosed_of_open g h
  unfold slot
  rw [hclosed, wake_place, raisePlain_place, hm.slots, withDoor_slots]

/-! ## The scan that finds no label -/

/-- Only a slot that becomes EMPTY is noted (R39). -/
theorem changeSlot_notes (g : Settings) (k : Nat) {x : Slot} (l : Lib) (hx : x ≠ .empty) :
    (l.changeSlot g k x).notes = l.notes := by
  unfold changeSlot
  simp only [hx, decide_false, Bool.false_and, Bool.false_eq_true, if_false]
  split
  · rw [withdrawNotice_notes, withdrawNotice_notes]
  · rfl

theorem rejectSlot_notes (g : Settings) (k : Nat) (label : Option Serial) (why : Reject) (l : Lib) :
    (l.rejectSlot g k label why).notes = l.notes := by
  unfold rejectSlot postRejected
  rw [updateRemove_notes, postNotice_notes, changeSlot_notes g k l (by simp)]

/-- The settling of a slot with no label read in it leaves nothing to do. -/
theorem settleSlot_notes (g : Settings) {l : Lib} {k : Nat} (h : ∀ label, l.slot k ≠ .inbound (some label)) :
    (l.settleSlot g k).notes = l.notes := by
  unfold settleSlot
  match hs : l.slot k with
  | .inbound none => exact rejectSlot_notes g k none .unreadable l
  | .inbound (some label) => exact absurd hs (h label)
  | .empty | .pick _ _ | .place _ | .outbound _ | .rejected _ _ => rfl

/-- A scan with no label to read, up to slot `n`: the unreadable reels met so far are REJECTED, the other slots
stand, and nothing is left to do (R37). -/
theorem scannedTo_unlabelled (g : Settings) {l : Lib} (hshape : l.shape = specShape)
    (h : ∀ k label, l.slot k ≠ .inbound (some label)) {n : Nat} (hn : n ≤ 8) :
    (∀ k, n ≤ k → (l.scannedTo g n).slot k = l.slot k)
      ∧ (∀ k, k < n → l.slot k = .inbound none → (l.scannedTo g n).slot k = .rejected none .unreadable)
      ∧ (l.scannedTo g n).notes = l.notes := by
  induction n with
  | zero => exact ⟨fun _ _ => rfl, by omega, rfl⟩
  | succ n ih =>
    obtain ⟨habove, hbelow, hnotes⟩ := ih (by omega)
    obtain ⟨hothers, -, hunread, -⟩ := scannedTo_settled g hshape (k := n) (by omega)
    refine ⟨fun k hk => ?_, fun k hk hin => ?_, ?_⟩
    · rw [hothers k (by omega), habove k (by omega)]
    · obtain hlt | rfl := Nat.lt_succ_iff_lt_or_eq.1 hk
      · rw [hothers k (by omega), hbelow k hlt hin]
      · exact hunread ((habove k le_rfl).trans hin)
    · rw [scannedTo_succ, settleSlot_notes g (by rw [habove n le_rfl]; exact h n), hnotes]

/-- The action SCAN-STATION makes a scan in READY with the door CLOSED (R167). -/
theorem act_scanStation (g : Settings) (l : Lib) (r : Raising) (ha : linkOf g r.source = .scanStation)
    (hready : l.start.state = .ready) (hdoor : l.place.doorOpen = false) : act g l r = l.scan g := by
  simp [act, ha, hready, hdoor]

theorem slot_withNotes (l : Lib) (n : Notes) (k : Nat) : ({ l with notes := n } : Lib).slot k = l.slot k := rfl

theorem interlock_of_fixed {l m : Lib} (h : m.fixed = l.fixed) : m.rail.interlock = l.rail.interlock :=
  congrArg Fixed.interlock h

/-- The closing of the door alone has been raised, its source is linked to SCAN-STATION, the interlock flag is set and
no label is read in an INBOUND slot: the step settles the unreadable reels (R37, R167). -/
theorem settle_linkedScan (g : Settings) {l : Lib} (hshape : l.shape = specShape)
    (hnotes : l.notes = { Notes.none with
      raised := [{ source := .stationDoorClosed, drive := none, columns := none, tag := none }], wake := true })
    (hlock : l.rail.interlock = true) (hready : l.start.state = .ready) (hdoor : l.place.doorOpen = false)
    (hlink : entryOf g.links 1 = .scanStation) (hlabel : ∀ k label, l.slot k ≠ .inbound (some label)) {k : Nat}
    (hk : k < 8) (hin : l.slot k = .inbound none) : (l.settle g).slot k = .rejected none .unreadable := by
  generalize hm : ({ l with notes := .none } : Lib) = m
  have hm_slot : ∀ j, m.slot j = l.slot j := by subst hm; exact fun _ => rfl
  have hm_shape : m.shape = specShape := by subst hm; exact hshape
  obtain ⟨-, hrejected, hquiet⟩ :=
    scannedTo_unlabelled g hm_shape (fun j label => (hm_slot j).trans_ne (hlabel j label)) (le_refl 8)
  rw [← scan_eq_scannedTo] at hrejected hquiet
  have hm_quiet : (m.scan g).notes = .none := hquiet.trans (by subst hm; rfl)
  have hscan_lock : (m.scan g).rail.interlock = true := by
    rw [interlock_of_fixed (scan_fixed g m)]; subst hm; exact hlock
  have hact : act g m { source := .stationDoorClosed, drive := none, columns := none, tag := none } = m.scan g :=
    act_scanStation g m _ hlink (by subst hm; exact hready) (by subst hm; exact hdoor)
  have hsettled : l.settle g = { m.scan g with notes := .none } :=
    settle_interlock_raised g l _ hlock (by rw [hnotes]; exact ⟨rfl, rfl, rfl⟩) (by rw [hnotes]) _ (by rw [hm, hact])
      hscan_lock (by rw [hm_quiet]; exact ⟨rfl, rfl, rfl⟩) (by rw [hm_quiet]; rfl)
  rw [hsettled, slot_withNotes]
  exact hrejected k hk ((hm_slot k).trans hin)

end Lib

/-- Settles O28: the door's change is followed by the accessors' orders alone, and the raising by the scan it is
linked to. -/
theorem stationDoorReports : Obligations.StationDoorReports := by
  unfold Obligations.StationDoorReports
  intro s hl
  have hopened := exec_event .doorOpened Lib.doorOpened s hl rfl _ rfl
  have hclosed := exec_event .doorClosed Lib.doorClosed s hl rfl _ rfl
  refine ⟨fun hdoor => ⟨_, hopened, ?_, rfl, rfl⟩, fun hdoor => ⟨_, hclosed, ?_, ?_⟩, fun hdoor => ?_, fun hdoor => ?_,
    fun hshape hdoor hlock hready hlink hlabel => ⟨_, hclosed, fun k hk hin => ?_⟩⟩
  · exact (Lib.settle_fixed _ _).trans (Lib.doorOpened_of_closed s.set hdoor).fixed
  · exact Lib.doorClosed_fixed s.set hdoor
  · rw [Lib.doorClosed_notes s.set hdoor]
  · exact exec_event_quiet _ _ s hl rfl _ (Lib.doorOpened_of_open s.set hdoor) (found_notes s)
  · exact exec_event_quiet _ _ s hl rfl _ (Lib.doorClosed_of_closed s.set hdoor) (found_notes s)
  · have hfixed := Lib.doorClosed_fixed s.set hdoor
    have hslot := Lib.doorClosed_slot s.set hdoor
    have hnotes := Lib.doorClosed_notes s.set hdoor
    rw [found_notes] at hnotes
    exact Lib.settle_linkedScan s.set ((Lib.doorClosed_shape s.set s.found).trans (found_shape hshape)) hnotes
      ((congrArg Fixed.interlock hfixed).trans hlock) ((congrArg Fixed.state hfixed).trans hready)
      (congrArg Fixed.doorOpen hfixed) hlink (fun j label => (hslot j).trans_ne (hlabel j label)) hk
      ((hslot k).trans hin)

end Sys2Proof.Machine
end

section
/-! The library definition and the format (R27, R187, R188): Define Library, Format Catalogue, and the clearing of a
format, which the homing of the accessors ends. -/

namespace Sys2Proof.Machine

/-! ## Define Library and Format Catalogue -/

/-- A command that UNFORMATTED lets through, too, and whose checks all hold. -/
theorem unformattedToo_checks_of_forall {l : Lib} (hstate : l.start.state ≠ .formatting) (about : Subject)
    (g : Settings) {cs : List (Bool × Sense × Subject)} (k : Applied) (h : ∀ c ∈ cs, c.1 = true) :
    gated .unformattedToo about g l (checks cs g l k) = k := by
  rw [gated_unformattedToo about g l _ hstate, checks_eq_of_forall g l k h]

theorem exec_defineLibrary {f : LibraryBlock} {s : State} (hl : s.live) (hfields : libraryFieldsOk f = true)
    (hdisabled : disabledOk f = true)
    (hstate : s.lib.start.state = .unformatted ∨ s.lib.start.state = .ready ∧ s.lib.reqs.live = []) :
    exec (.defineLibrary f) s = .next (s.after s.set { s.lib.begin with store := { s.lib.store with
      lib := if s.lib.start.state = .ready then s.lib.store.lib.adopt (LibDef.ofBlock f) else s.lib.store.lib
      pendingDef := some { lib := LibDef.ofBlock f, disabled := f.disabled } } } (.good [])) := by
  refine exec_good_quiet _ _ s hl rfl _ _ _ ?_ rfl
  unfold cmdDefineLibrary
  dsimp only
  rw [unformattedToo_checks_of_forall]
  · rfl
  · rcases hstate with h | ⟨h, -⟩ <;> simp [h]
  · rcases hstate with h | ⟨h, hlive⟩ <;> simp [*]

theorem exec_formatCatalogue {p : PendingDef} {s : State} (hl : s.live) (hdef : s.lib.store.pendingDef = some p)
    (hstate : s.lib.start.state ≠ .formatting) (hlock : s.lib.rail.interlock = false) (hlive : s.lib.reqs.live = []) :
    exec .formatCatalogue s = .next (s.after s.set
      { s.lib.begin with start := { s.lib.start with state := .formatting, clearing := true } } (.good [])) := by
  refine exec_good_quiet _ _ s hl rfl _ _ _ ?_ rfl
  unfold cmdFormatCatalogue
  rw [unformattedToo_checks_of_forall (l := s.lib.begin) hstate]
  · rfl
  · simp [hdef, hlock, hlive]

/-! ## What the accessors' orders leave alone in a library without work -/

/-- `m` differs from `l` in the rail, the drives, the slots, the station lock, the prompts, the messages sent and the
notes at most. -/
def RailOnly (l m : Lib) : Prop :=
  m = { l with
    rail := m.rail, drives := m.drives, prompts := m.prompts, out := m.out, notes := m.notes
    place := { l.place with slots := m.place.slots, locked := m.place.locked } }

theorem RailOnly.refl (l : Lib) : RailOnly l l := rfl

theorem RailOnly.trans {l m n : Lib} (h : RailOnly l m) (k : RailOnly m n) : RailOnly l n := by
  unfold RailOnly at *; rw [k, h]

theorem OrdersOnly.toRail {l m : Lib} (h : OrdersOnly l m) : RailOnly l m := by
  unfold OrdersOnly RailOnly at *; rw [h]

theorem PromptsOnly.toRail {l m : Lib} (h : PromptsOnly l m) : RailOnly l m := by
  unfold PromptsOnly RailOnly at *; rw [h]

theorem RailOnly.foldl {α : Type} (f : Lib → α → Lib) (hf : ∀ l a, RailOnly l (f l a)) (xs : List α) (l : Lib) :
    RailOnly l (xs.foldl f l) := by
  induction xs generalizing l with
  | nil => exact .refl l
  | cons x xs ih => exact (hf l x).trans (ih _)

theorem RailOnly.store {l m : Lib} (h : RailOnly l m) : m.store = l.store := by unfold RailOnly at h; rw [h]
theorem RailOnly.cat {l m : Lib} (h : RailOnly l m) : m.cat = l.cat := by unfold RailOnly at h; rw [h]
theorem RailOnly.cells {l m : Lib} (h : RailOnly l m) : m.place.cells = l.place.cells := by unfold RailOnly at h; rw [h]
theorem RailOnly.reqs {l m : Lib} (h : RailOnly l m) : m.reqs = l.reqs := by unfold RailOnly at h; rw [h]
theorem RailOnly.acct {l m : Lib} (h : RailOnly l m) : m.acct = l.acct := by unfold RailOnly at h; rw [h]
theorem RailOnly.start {l m : Lib} (h : RailOnly l m) : m.start = l.start := by unfold RailOnly at h; rw [h]

/-- No request is live, and no cell bears the mark of one (R30). -/
structure Lib.Workless (l : Lib) : Prop where
  live : l.reqs.live = []
  unmarked : ∀ n t, l.cell n ≠ .empty (some t)

theorem Lib.Workless.of_rail {l m : Lib} (hw : l.Workless) (h : RailOnly l m) : m.Workless where
  live := by rw [h.reqs, hw.live]
  unmarked := by unfold Lib.cell; rw [h.cells]; exact hw.unmarked

namespace Lib

theorem Workless.req?_eq_none {l : Lib} (hw : l.Workless) (t : Nat) : l.req? t = none := by
  simp [Lib.req?, hw.live]

theorem Workless.clearMarks_eq {l : Lib} (hw : l.Workless) (t : Nat) : l.clearMarks t = l := by
  unfold Lib.clearMarks
  generalize List.range l.place.cells.length = ns
  induction ns with
  | nil => rfl
  | cons n ns ih => rwa [List.foldl_cons, if_neg (hw.unmarked n t)]

theorem leftWait_only (x : AccId) (l : Lib) : OrdersOnly l (l.leftWait x) := by
  unfold leftWait; split <;> rfl

theorem granted_only (g : Settings) (x : AccId) (s : Span) (l : Lib) : OrdersOnly l (l.granted g x s) := by
  unfold granted; dsimp only
  split
  · exact ((updAcc_only x _ l).trans (leftWait_only x _)).trans (updateLock_only _)
  · exact ((updAcc_only x _ l).trans (leftWait_only x _)).trans (sendOrder_only g x _)

theorem retest_only (g : Settings) (x : AccId) (l : Lib) : OrdersOnly l (l.retest g x) := by
  unfold retest; split
  · split
    · exact granted_only g x _ l
    · exact .refl l
  · exact .refl l

theorem startYield_only (g : Settings) (x : AccId) (c : Nat) (l : Lib) : OrdersOnly l (l.startYield g x c) :=
  (updAcc_only x _ l).trans (granted_only g x _ _)

theorem setCauseOf_only (o : Order) (c : Cause) (l : Lib) : RailOnly l (l.setCauseOf o c) := by
  unfold setCauseOf; split
  · split <;> rfl
  · rfl

theorem wake_railOnly (l : Lib) : RailOnly l l.wake := rfl

theorem setWaiter_only (w : Option AccId) (l : Lib) : OrdersOnly l { l with rail := { l.rail with firstWaiter := w } } :=
  rfl

theorem unstage_only (x : AccId) (l : Lib) : RailOnly l (l.unstage x) :=
  ((updAcc_only x _ l).toRail.trans (wake_railOnly _)).trans (updateLock_only _).toRail

theorem setSlot_railOnly (g : Settings) (k : Nat) (x : Slot) (l : Lib) : RailOnly l (l.setSlot g k x) := by
  have h := setSlot_only g k x l
  unfold PlaceOnly at h
  rw [setSlot_cat, setSlot_place] at h
  unfold RailOnly
  rw [setSlot_place, setSlot_drives, setSlot_rail]
  exact h

theorem releaseReservations_only (g : Settings) (o : Order) (t : Nat) {l : Lib} (hw : l.Workless) :
    RailOnly l (l.releaseReservations g o t) := by
  unfold releaseReservations; dsimp only
  have hdrives : RailOnly l (((l.servingDrives t).filter l.isReserved).foldl (fun l d => l.releaseDrive d) l) :=
    .foldl _ (fun l d => by rw [releaseDrive_only]; rfl) _ l
  have hslot : RailOnly l (freePlaceSlot g t
      (((l.servingDrives t).filter l.isReserved).foldl (fun l d => l.releaseDrive d) l)) := by
    refine hdrives.trans ?_
    unfold freePlaceSlot; split
    · exact setSlot_railOnly g _ _ _
    · rfl
  have hw' := hw.of_rail hslot
  rw [hw'.req?_eq_none, Option.bind_none, ite_self, hw'.clearMarks_eq]
  exact hslot

theorem backToList_workless (g : Settings) (t : Nat) {l : Lib} (hw : l.Workless) : l.backToList g t = l := by
  unfold backToList; rw [hw.req?_eq_none]

theorem withdrawStaged_only (g : Settings) (x : AccId) {l : Lib} (hw : l.Workless) :
    RailOnly l (l.withdrawStaged g x) := by
  unfold withdrawStaged; split
  · rfl
  · split
    · rfl
    · have hunstaged := unstage_only x l
      dsimp only
      split
      · next o _ _ _ t _ =>
        have hreleased := hunstaged.trans (releaseReservations_only g o t (hw.of_rail hunstaged))
        rwa [backToList_workless g t (hw.of_rail hreleased)]
      · exact hunstaged

theorem setAside_only (g : Settings) (x : AccId) (need : Span) {l : Lib} (hw : l.Workless) :
    RailOnly l (l.setAside g x need) := by
  unfold setAside; dsimp only
  refine (withdrawStaged_only g x hw).trans ?_
  split
  · rfl
  · refine RailOnly.trans ?_ (startYield_only g x _ _).toRail
    refine RailOnly.trans ?_ ((updAcc_only x _ _).toRail.trans (wake_railOnly _))
    split
    · rfl
    · exact setCauseOf_only _ _ _

theorem contend_only (g : Settings) (x : AccId) {l : Lib} (hw : l.Workless) : RailOnly l (l.contend g x) := by
  have htested := ((retest_only g (other x) l).trans (retest_only g x _)).toRail
  unfold contend; dsimp only
  refine htested.trans ?_
  have hw' := hw.of_rail htested
  split
  · split
    · split
      · exact (startYield_only g _ _ _).toRail
      · rfl
    · split
      · split
        · exact (setAside_only g x _ hw').trans (retest_only g _ _).toRail
        · rfl
      · rfl
    · rfl
  · rfl

theorem contend_after (g : Settings) (x : AccId) {l m : Lib} (hw : l.Workless) (h : OrdersOnly l m) :
    RailOnly l (m.contend g x) :=
  h.toRail.trans (contend_only g x (hw.of_rail h.toRail))

theorem enterWait_only (g : Settings) (x : AccId) (s : Span) {l : Lib} (hw : l.Workless) :
    RailOnly l (l.enterWait g x s) := by
  unfold enterWait; dsimp only
  exact contend_after g x hw (((updAcc_only x _ l).trans (setWaiter_only _ _)).trans (updateLock_only _))

theorem takeUp_only (g : Settings) (x : AccId) {l : Lib} (hw : l.Workless) : RailOnly l (l.takeUp g x) := by
  unfold takeUp; split
  · rfl
  · dsimp only; split
    · exact (granted_only g x _ l).toRail
    · exact enterWait_only g x _ hw

/-- A homing made the current order is taken up at once: it has no destination to be held for. -/
theorem makeCurrent_home (g : Settings) (x : AccId) (l : Lib) :
    l.makeCurrent g x (plainOrder .home)
      = ((l.updAcc x fun v => { v with current := some (plainOrder .home) }).updateLock).takeUp g x := by
  rfl

theorem startHoming_only (g : Settings) (x : AccId) {l : Lib} (hw : l.Workless) : RailOnly l (l.startHoming g x) := by
  unfold startHoming; dsimp only
  split
  · exact (updAcc_only x _ l).toRail
  · have hdue := (updAcc_only x (fun v => { v with homing := .due }) l).toRail
    split
    · have hcurrent := ((updAcc_only x (fun v => { v with homing := .due }) l).trans
        (updAcc_only x (fun v => { v with homing := .underWay }) _)).trans
        ((updAcc_only x (fun v => { v with current := some (plainOrder .home) }) _).trans (updateLock_only _)) |>.toRail
      unfold promote
      rw [acc_updAcc_self, if_pos rfl, makeCurrent_home]
      exact hcurrent.trans (takeUp_only g x (hw.of_rail hcurrent))
    · exact hdue

/-! ## The clearing of a format -/

/-- The records cleared and the header written (R188), before the notices and the rail are brought up to date. -/
def cleared (p : PendingDef) (l : Lib) : Lib :=
  { l with
    store := { mark := true, checked := true, lib := p.lib, pendingDef := none }
    cat := { l.cat with vols := [], scratch := [] }
    acct := { l.acct with accounts := [] }
    place := { l.place with cells := freshCells p, slots := l.place.slots.map formatSlot }
    drives := l.drives.map (formatDrive p.lib.columns)
    start := { l.start with clearing := false } }

theorem formatClear_eq (g : Settings) {l : Lib} {p : PendingDef} (h : l.store.pendingDef = some p) :
    l.formatClear g
      = ((((((((l.cleared p).withdrawWhere g fun q => q.kind.clearedByFormat).postSlots g).evalLow g).clampAcc
          .a).clampAcc .b).startHoming g .a).startHoming g .b) := by
  unfold formatClear; rw [h]; rfl

/-- What the clearing of a format by the definition `p` leaves of the records, `start` being where start-up stood. -/
structure Cleared (p : PendingDef) (start : StartUp) (l : Lib) : Prop where
  store : l.store = { mark := true, checked := true, lib := p.lib, pendingDef := none }
  start : l.start = { start with clearing := false }
  vols : l.cat.vols = []
  scratch : l.cat.scratch = []
  accounts : l.acct.accounts = []
  cells : l.place.cells = freshCells p
  live : l.reqs.live = []

theorem cleared_cleared (p : PendingDef) {l : Lib} (h : l.reqs.live = []) : (l.cleared p).Cleared p l.start :=
  ⟨rfl, rfl, rfl, rfl, rfl, rfl, h⟩

/-- A fresh cell is DISABLED, or EMPTY without a mark (R32). -/
theorem Cleared.workless {p : PendingDef} {start : StartUp} {l : Lib} (h : l.Cleared p start) : l.Workless where
  live := h.live
  unmarked n t := by
    unfold cell
    rw [h.cells, freshCells, List.getD_eq_getElem?_getD, List.getElem?_map]
    cases (List.range (p.lib.columns * p.lib.perColumn))[n]? with
    | none => simp
    | some m => by_cases hm : m ∈ p.disabled <;> simp [hm]

theorem Cleared.of_rail {p : PendingDef} {start : StartUp} {l m : Lib} (h : l.Cleared p start) (hm : RailOnly l m) :
    m.Cleared p start where
  store := hm.store.trans h.store
  start := hm.start.trans h.start
  vols := by rw [hm.cat, h.vols]
  scratch := by rw [hm.cat, h.scratch]
  accounts := by rw [hm.acct, h.accounts]
  cells := hm.cells.trans h.cells
  live := by rw [hm.reqs, h.live]

theorem Cleared.evalLow (g : Settings) {p : PendingDef} {start : StartUp} {l : Lib} (h : l.Cleared p start) :
    (l.evalLow g).Cleared p start where
  store := (evalLow_store g l).trans h.store
  start := (evalLow_start g l).trans h.start
  vols := (evalLow_vols g l).trans h.vols
  scratch := (evalLow_scratch g l).trans h.scratch
  accounts := by rw [evalLow_acct, h.accounts]
  cells := by rw [evalLow_place, h.cells]
  live := by rw [evalLow_reqs, h.live]

theorem clampAcc_only (x : AccId) (l : Lib) : OrdersOnly l (l.clampAcc x) := by
  unfold clampAcc; exact updAcc_only x _ l

theorem postSlots_only (g : Settings) (l : Lib) : PromptsOnly l (l.postSlots g) := by
  refine PromptsOnly.trans (PromptsOnly.foldl _ (fun l k => ?_) _ l) (updateRemove_only g _)
  split
  · exact postNotice_only _ _ _ _ _
  · rfl

/-- With no live request, the clearing of a format leaves the catalogue, the accounts and the cells clear, and the
header of the new definition: the homing that ends it finds no work to change them by (R188). -/
theorem formatClear_cleared (g : Settings) {l : Lib} {p : PendingDef} (h : l.store.pendingDef = some p)
    (hlive : l.reqs.live = []) : (l.formatClear g).Cleared p l.start := by
  rw [formatClear_eq g h]
  have hnotices := (cleared_cleared p hlive).of_rail
    ((withdrawWhere_only g (fun q => q.kind.clearedByFormat) _).trans (postSlots_only g _)).toRail
  have hclamped := (hnotices.evalLow g).of_rail ((clampAcc_only .a _).trans (clampAcc_only .b _)).toRail
  have hhomed := hclamped.of_rail (startHoming_only g .a hclamped.workless)
  exact hhomed.of_rail (startHoming_only g .b hhomed.workless)

end Lib

/-- The clearing is made as the event finds the records; the event itself adds nothing (R188). -/
theorem exec_formatClearing {s : State} (hl : s.live) (hclearing : s.lib.start.clearing = true) :
    exec .formatClearing s = .next { s with lib := (s.lib.begin.formatClear s.set).settle s.set } := by
  refine exec_event_quiet .formatClearing (fun _ l => l) s hl rfl _ ?_ (Lib.settle_notes _ _)
  unfold State.found Lib.opened
  exact if_pos hclearing

/-- Settles O44: the two commands pass their checks, and the homing after a clearing leaves what was cleared. -/
theorem defineAndFormatLibrary : Obligations.DefineAndFormatLibrary := by
  unfold Obligations.DefineAndFormatLibrary
  refine ⟨fun f s hl hfields hdisabled => ⟨fun hstate => ?_, fun hstate hlive => ?_⟩,
    fun p s hl hdef => ⟨exec_formatCatalogue hl hdef, fun hclearing hlive => ?_⟩⟩
  · have hdefine := exec_defineLibrary hl hfields hdisabled (.inl hstate)
    rwa [if_neg (by simp [hstate])] at hdefine
  · have hdefine := exec_defineLibrary hl hfields hdisabled (.inr ⟨hstate, hlive⟩)
    rwa [if_pos hstate] at hdefine
  · obtain ⟨hstore, hstart, hvols, hscratch, haccounts, hcells, -⟩ :=
      Lib.formatClear_cleared s.set (l := s.lib.begin) hdef hlive
    exact ⟨_, exec_formatClearing hl hclearing, hstore, hstart, hvols, hscratch, haccounts, hcells⟩

end Sys2Proof.Machine
end

section
/-! CELL-SEEN, SCAN-DONE and MOVE-DONE for the order in hand (R42, R86, R114, R209). -/

namespace Sys2Proof.Machine

/-- A report that names the order in hand as sent is about that order (R102). -/
theorem Lib.taken?_current {l : Lib} {x : AccId} {n : Nat} {o : Order} (hcur : (l.acc x).current = some o)
    (hnum : o.number = some n) : l.taken? x n = some o := by
  simp [taken?, hcur, hnum]

theorem exec_cellSeen {x : AccId} {n cell column : Nat} {seen : Reading} {s : State} (hl : s.live)
    (hcol : column < s.found.columns) :
    exec (.cellSeen x n cell column seen) s
      = .next (s.settled (s.found.cellSeenReport s.set x n cell column seen)) :=
  exec_event _ _ s hl rfl _ (if_pos (decide_eq_true hcol))

theorem exec_moveDone {x : AccId} {n column : Nat} {s : State} (hl : s.live) (hcol : column < s.found.columns) :
    exec (.moveDone x n column) s = .next (s.settled (s.found.moveDoneReport s.set x n column)) :=
  exec_event _ _ s hl rfl _ (if_pos (decide_eq_true hcol))

/-- An event that ends with nothing noted is settled as it stands. -/
theorem settled_quiet (s : State) {l : Lib} (h : l.notes = .none) : s.settled l = { s with lib := l } := by
  unfold State.settled
  rw [Lib.settle_quiet _ _ h]

namespace Lib

/-! ## Column scans -/

/-- The accessor stands at the column reported, and its step timer starts again while it moves (R102, R108). -/
theorem setPos_restartTimer (g : Settings) (x : AccId) (column : Nat) (l : Lib) :
    (l.setPos x column).restartTimer g x = l.updAcc x fun a =>
      { a with pos := column, timer := if a.state = .moving then some g.timers.step else a.timer } := by
  cases x <;> rfl

/-- A report from the column of the scan in hand, on a cell of that column (R42). -/
theorem cellSeenReport_scan (g : Settings) {x : AccId} {n cell column : Nat} (seen : Reading) {l : Lib} {o : Order}
    (htaken : l.taken? x n = some o) (hkind : o.kind = .scan column) (hcell : cell < l.place.cells.length)
    (hcol : l.cellCol cell = column) :
    l.cellSeenReport g x n cell column seen
      = ((l.setPos x column).restartTimer g x).cellFound g cell (normReading seen) := by
  unfold cellSeenReport
  simp [htaken, hkind, hcell, hcol]

theorem cellFound_filled_empty (g : Settings) {n : Nat} {s : Serial} {l : Lib} (h : l.cell n = .filled s) :
    l.cellFound g n .empty = l.loseVolume g s (.empty none) := by
  simp [cellFound, h]

theorem cellFound_as_recorded (g : Settings) {n : Nat} {s : Serial} {l : Lib} (h : l.cell n = .filled s) :
    l.cellFound g n (.filled (some s)) = l := by
  simp [cellFound, h]

/-- A volume that no request holds is lost: it is declared MISSING (R4, R90). -/
theorem loseVolume_unheld (g : Settings) {s : Serial} (c : Cell) {l : Lib} {v : Volume} (hv : l.vol? s = some v)
    (hstate : v.state ≠ .missing) (hfree : v.holder = none) : l.loseVolume g s c = l.declareMissing g s c := by
  simp [loseVolume, hv, hstate, hfree]

/-- A FILLED cell seen empty loses its volume, here one at home that no request holds (R42). -/
theorem cellFound_lost (g : Settings) {n : Nat} {s : Serial} {l : Lib} {v : Volume} (hcell : l.cell n = .filled s)
    (hlen : n < l.place.cells.length) (hv : l.vol? s = some v) (hhome : v.state = .home) (hhomeCell : v.homeCell = some n)
    (hfree : v.holder = none) :
    (l.cellFound g n .empty).cell n = .empty none
      ∧ (∃ w, (l.cellFound g n .empty).vol? s = some w ∧ w.state = .missing ∧ w.homeCell = none)
      ∧ (l.cellFound g n .empty).reqs = l.reqs ∧ (l.cellFound g n .empty).drives = l.drives := by
  have hpresent : v.state ≠ .missing := by simp [hhome]
  rw [cellFound_filled_empty g hcell, loseVolume_unheld g _ hv hpresent hfree]
  exact ⟨cell_declareMissing_home g s _ l v n hv hpresent hhomeCell hlen,
    ⟨_, vol?_declareMissing_self g s _ l v hv hpresent, rfl, rfl⟩, declareMissing_reqs .., declareMissing_drives ..⟩

/-! ## The end of a column -/

theorem acc_of_rail {l m : Lib} (h : m.rail = l.rail) (x : AccId) : m.acc x = l.acc x := by
  cases x <;> simp [acc, h]

theorem scanDoneReport_scan (g : Settings) {x : AccId} {n column t : Nat} {l : Lib} {o : Order}
    (htaken : l.taken? x n = some o) (hkind : o.kind = .scan column) (hserves : o.serves = some t) :
    l.scanDoneReport g x n column = ((l.setPos x column).auditColumnDone g t).endOrder g x := by
  simp [scanDoneReport, htaken, hkind, hserves]

@[simp] theorem enterQueued_rail (g : Settings) (t : Nat) (l : Lib) : (l.enterQueued g t).rail = l.rail := by
  simp [enterQueued, takeQueue]

/-- The records with the cursor of an audit on its next column (R86). -/
def audited (t : Nat) (c : Cursor) (l : Lib) : Lib :=
  l.updReq t fun q => { q with cursor := some { c with next := c.next + 1 } }

theorem req?_audited (t : Nat) (c : Cursor) (l : Lib) :
    (l.audited t c).req? t = (l.req? t).map fun q => { q with cursor := some { c with next := c.next + 1 } } :=
  req?_updReq_self t _ l (by intro q; rfl)

theorem auditColumnDone_next (g : Settings) {t : Nat} {l : Lib} {r : Request} {c : Cursor} (hr : l.req? t = some r)
    (hc : r.cursor = some c) (hcancel : r.cancelPending = false) (hnext : c.next + 1 ≤ c.last) :
    l.auditColumnDone g t = (l.audited t c).enterQueued g t := by
  simp [auditColumnDone, audited, hr, hc, hcancel, Nat.not_lt.2 hnext]

theorem auditColumnDone_last (g : Settings) {t : Nat} {l : Lib} {r : Request} {c : Cursor} (hr : l.req? t = some r)
    (hc : r.cursor = some c) (hlast : c.last < c.next + 1) :
    l.auditColumnDone g t = (l.audited t c).complete g t .ok := by
  simp [auditColumnDone, audited, hr, hc, hlast]

theorem auditColumnDone_rail (g : Settings) (t : Nat) (l : Lib) : (l.auditColumnDone g t).rail = l.rail := by
  unfold auditColumnDone
  split
  · rfl
  · split
    · dsimp only; split <;> simp
    · rfl

/-- An audit of the host that goes on is QUEUED for its next column; one at its last column ends OK (R86). -/
theorem req?_auditColumnDone (g : Settings) {t : Nat} {l : Lib} {r : Request} {c : Cursor} (hr : l.req? t = some r)
    (hc : r.cursor = some c) (horigin : r.origin = .link) (hcode : r.code = none) (hstate : r.state = .moving)
    (hcancel : r.cancelPending = false) :
    ∃ q, (l.auditColumnDone g t).req? t = some q ∧ q.cursor = some { c with next := c.next + 1 }
      ∧ (c.next + 1 ≤ c.last → q.state = .queued) ∧ (c.last < c.next + 1 → q.state = .done ∧ q.code = some .ok) := by
  have haudited : (l.audited t c).req? t = some { r with cursor := some { c with next := c.next + 1 } } := by
    rw [req?_audited, hr]; rfl
  obtain hnext | hlast := Nat.lt_or_ge c.last (c.next + 1) |>.symm
  · rw [auditColumnDone_next g hr hc hcancel hnext, req?_enterQueued_self, haudited]
    exact ⟨_, rfl, rfl, fun _ => rfl, fun h => by omega⟩
  · rw [auditColumnDone_last g hr hc hlast, req?_complete_self g t .ok _ _ haudited (by simp [hstate]) horigin]
    exact ⟨_, rfl, rfl, fun h => by omega, fun _ => ⟨rfl, by simp [hcode]⟩⟩

/-! ## The end of a move -/

theorem moveDoneReport_yield (g : Settings) {x : AccId} {n c : Nat} (column : Nat) {l : Lib} {o : Order}
    (htaken : l.taken? x n = some o) (hkind : o.kind = .yield c) :
    l.moveDoneReport g x n column = if column = c then (l.setPos x column).endOrder g x else l := by
  simp [moveDoneReport, htaken, hkind]

theorem moveDoneReport_home (g : Settings) {x : AccId} {n : Nat} (column : Nat) {l : Lib} {o : Order}
    (htaken : l.taken? x n = some o) (hkind : o.kind = .home) :
    l.moveDoneReport g x n column
      = if column = l.park x then
          (l.updAcc x fun a => { a with pos := column, homing := .ended }).endOrder g x
        else l := by
  have hjoin : (l.setPos x column).updAcc x (fun v => { v with homing := .ended })
      = l.updAcc x fun a => { a with pos := column, homing := .ended } := by cases x <;> rfl
  simp [moveDoneReport, htaken, hkind, hjoin]

end Lib

/-- Settles O59: the reports about the order in hand, one rule for each kind of order. -/
theorem scanAndMoveReports : Obligations.ScanAndMoveReports := by
  unfold Obligations.ScanAndMoveReports
  intro x num column o s hl hcol hcur hnum
  have htaken := Lib.taken?_current hcur hnum
  have hstale := settled_quiet s (found_notes s)
  refine ⟨fun cell serial v hkind hcell hcellCol hfilled hvalid hv hhome hhomeCell hfree => ?_,
    fun tag r c hkind hserves hr hc horigin hcode hstate hcancel => ?_, fun c hkind hne => ?_, fun hkind hne => ?_,
    fun hkind => ?_, fun hkind hpark => ?_⟩
  · rw [exec_cellSeen hl hcol, exec_cellSeen hl hcol, Lib.cellSeenReport_scan s.set _ htaken hkind hcell hcellCol,
      Lib.cellSeenReport_scan s.set _ htaken hkind hcell hcellCol, Lib.setPos_restartTimer]
    generalize hm : s.found.updAcc x _ = m
    have hm_cell : m.cell cell = .filled serial := by rw [← hm, ← hfilled]; unfold Lib.cell; simp
    have hm_vol : m.vol? serial = some v := by rw [← hm, ← hv]; unfold Lib.vol?; simp
    have hm_len : cell < m.place.cells.length := by rw [← hm]; simpa using hcell
    constructor
    · obtain ⟨hlost, hmissing, hreqs, hdrives⟩ :=
        Lib.cellFound_lost s.set hm_cell hm_len hm_vol hhome hhomeCell hfree
      exact ⟨_, rfl, hlost, hmissing, hreqs.trans (by simp [← hm]), hdrives.trans (by simp [← hm])⟩
    · have hlabel : normReading (.filled (some serial)) = .filled (some serial) := by
        simp [normReading, normLabel, Option.filter, hvalid]
      rw [hlabel, Lib.cellFound_as_recorded s.set hm_cell, settled_quiet s (by simp [← hm])]
  · have hexec := exec_event (.scanDone x num column) _ s hl rfl _ (Lib.scanDoneReport_scan s.set htaken hkind hserves)
    have hr' : (s.found.setPos x column).req? tag = some r := by rw [← hr]; unfold Lib.req? Lib.setPos; simp
    obtain ⟨q, hq, hcursor, hgoes, hends⟩ := Lib.req?_auditColumnDone s.set hr' hc horigin hcode hstate hcancel
    refine ⟨_, q, hexec, hq, hcursor, hgoes, hends, ?_⟩
    rw [Lib.acc_of_rail (Lib.auditColumnDone_rail s.set tag _), Lib.setPos, Lib.acc_updAcc_self]
  · rw [exec_moveDone hl hcol, Lib.moveDoneReport_yield s.set column htaken hkind, if_neg hne.symm, hstale]
  · rw [exec_moveDone hl hcol, Lib.moveDoneReport_home s.set column htaken hkind, if_neg hne, hstale]
  · rw [exec_moveDone hl hcol, Lib.moveDoneReport_yield s.set column htaken hkind, if_pos rfl]; rfl
  · rw [exec_moveDone hl hcol, Lib.moveDoneReport_home s.set column htaken hkind, if_pos hpark]

end Sys2Proof.Machine
end

section
/-! The shape of the records (Safety): the host commands, the events and the port keep it, and so does every step. -/

namespace Sys2Proof.Machine

/-! ## What a command's checks and its end do to the shape -/

@[simp] theorem Applied.good_lib (g : Settings) (l : Lib) (data : List Field) : (Applied.good g l data).lib = l := rfl
@[simp] theorem Applied.refuse_lib (g : Settings) (l : Lib) (c : Sense) (x : Subject) :
    (Applied.refuse g l c x).lib = l := rfl
@[simp] theorem Applied.busy_lib (g : Settings) (l : Lib) : (Applied.busy g l).lib = l := rfl

/-- A command turned away leaves the records, and with them every `P` that holds of them. -/
theorem gated_lib {P : Lib → Prop} {who : Gate} {x : Subject} {g : Settings} {l : Lib} {k : Applied} (hl : P l)
    (hk : P k.lib) : P (gated who x g l k).lib := by
  unfold gated
  split
  · split
    · exact hk
    · exact hl
  · split
    · exact hl
    · exact hk
  · exact hk

theorem checks_lib {P : Lib → Prop} {cs : List (Bool × Sense × Subject)} {g : Settings} {l : Lib} {k : Applied}
    (hl : P l) (hk : P k.lib) : P (checks cs g l k).lib := by
  induction cs with
  | nil => exact hk
  | cons c cs ih =>
    obtain ⟨ok, why, about⟩ := c
    cases ok
    · exact hl
    · exact ih

@[simp] theorem gated_shape (who : Gate) (x : Subject) (g : Settings) {l : Lib} {k : Applied}
    (hk : k.lib.shape = l.shape) : (gated who x g l k).lib.shape = l.shape :=
  gated_lib (P := fun m => m.shape = l.shape) rfl hk

@[simp] theorem checks_shape (cs : List (Bool × Sense × Subject)) (g : Settings) {l : Lib} {k : Applied}
    (hk : k.lib.shape = l.shape) : (checks cs g l k).lib.shape = l.shape :=
  checks_lib (P := fun m => m.shape = l.shape) rfl hk

@[simp] theorem catalogueCommand_shape (s : Serial) (cs : List (Bool × Sense)) (g : Settings) {l : Lib} {k : Applied}
    (hk : k.lib.shape = l.shape) : (catalogueCommand s cs g l k).lib.shape = l.shape :=
  gated_shape _ _ _ (checks_shape _ _ hk)

@[simp] theorem accountCommand_shape (n : Nat) (cs : List (Bool × Sense)) (g : Settings) {l : Lib} {k : Applied}
    (hk : k.lib.shape = l.shape) : (accountCommand n cs g l k).lib.shape = l.shape :=
  gated_shape _ _ _ (checks_shape _ _ hk)

@[simp] theorem onAccount_shape (n : Nat) (g : Settings) {l : Lib} {k : Account → Applied}
    (hk : ∀ a, (k a).lib.shape = l.shape) : (onAccount n g l k).lib.shape = l.shape := by
  refine accountCommand_shape _ _ _ ?_
  split
  · rfl
  · exact hk _

@[simp] theorem withTag_shape (tag : Nat) (g : Settings) {l : Lib} {k : Request → Applied}
    (hk : ∀ r, (k r).lib.shape = l.shape) : (withTag tag g l k).lib.shape = l.shape := by
  refine gated_shape _ _ _ (checks_shape _ _ ?_)
  split
  · rfl
  · exact hk _

@[simp] theorem admission_shape (clean : Bool) (g : Settings) {l : Lib} {k : Applied}
    (hk : k.lib.shape = l.shape) : (admission clean g l k).lib.shape = l.shape := by
  refine gated_shape _ _ _ (checks_shape _ _ ?_)
  split
  · rfl
  · exact hk

/-- A refusal for its account counts there (R157). -/
@[simp] theorem refuseCounted_shape (g : Settings) (l : Lib) (n : Nat) (why : Sense) :
    (refuseCounted g l n why).lib.shape = l.shape := by
  unfold refuseCounted; simp

@[simp] theorem accountChecks_shape (n : Nat) (g : Settings) {l : Lib} {k : Applied}
    (hk : k.lib.shape = l.shape) : (accountChecks n g l k).lib.shape = l.shape := by
  unfold accountChecks
  split
  · rfl
  · split
    · exact refuseCounted_shape ..
    · split
      · exact refuseCounted_shape ..
      · exact hk

/-! ## The host commands -/

theorem cmdDefineDrive_shape (f : DriveBlock) (g : Settings) (l : Lib) : (cmdDefineDrive f g l).lib.shape = l.shape := by
  refine gated_shape _ _ _ (checks_shape _ _ ?_)
  dsimp only
  split <;> simp

theorem cmdConfirmDrive_shape (d : Nat) (g : Settings) (l : Lib) : (cmdConfirmDrive d g l).lib.shape = l.shape := by
  refine gated_shape _ _ _ (checks_shape _ _ ?_)
  split <;> simp

theorem cmdVaryDrive_shape (d action : Nat) (g : Settings) (l : Lib) :
    (cmdVaryDrive d action g l).lib.shape = l.shape := by
  refine gated_shape _ _ _ (checks_shape _ _ ?_)
  split <;> simp

theorem cmdVaryPath_shape (p action : Nat) (g : Settings) (l : Lib) :
    (cmdVaryPath p action g l).lib.shape = l.shape := by
  refine gated_shape _ _ _ (checks_shape _ _ ?_)
  dsimp only
  split <;> simp

theorem cmdResumeLibrary_shape (g : Settings) (l : Lib) : (cmdResumeLibrary g l).lib.shape = l.shape := by
  refine gated_shape _ _ _ (checks_shape _ _ ?_)
  simp; rfl

theorem cmdMount_shape (f : MountBlock) (g : Settings) (l : Lib) : (cmdMount f g l).lib.shape = l.shape := by
  refine admission_shape _ _ (checks_shape _ _ (accountChecks_shape _ _ ?_))
  split <;> simp

theorem cmdMountScratch_shape (f : ScratchBlock) (g : Settings) (l : Lib) :
    (cmdMountScratch f g l).lib.shape = l.shape := by
  refine admission_shape _ _ (checks_shape _ _ (accountChecks_shape _ _ (checks_shape _ _ ?_)))
  split <;> simp

theorem cmdEject_shape (tag : Nat) (serial : Serial) (priority : Nat) (g : Settings) (l : Lib) :
    (cmdEject tag serial priority g l).lib.shape = l.shape := by
  refine admission_shape _ _ (checks_shape _ _ ?_)
  split <;> simp

theorem cmdCleanDrive_shape (tag drive priority : Nat) (g : Settings) (l : Lib) :
    (cmdCleanDrive tag drive priority g l).lib.shape = l.shape := by
  refine admission_shape _ _ (checks_shape _ _ ?_)
  split <;> simp

theorem cmdDismount_shape (tag : Nat) (g : Settings) (l : Lib) : (cmdDismount tag g l).lib.shape = l.shape := by
  refine withTag_shape _ _ fun r => checks_shape _ _ ?_
  dsimp only
  split <;> simp

theorem cmdCancel_shape (tag : Nat) (g : Settings) (l : Lib) : (cmdCancel tag g l).lib.shape = l.shape := by
  refine gated_shape _ _ _ (checks_shape _ _ ?_)
  split
  · rfl
  · split
    · rfl
    · split
      · next hcancel => exact Lib.cancel_shape _ _ _ _ hcancel
      · rfl

theorem cmdQueryRequest_shape (tag : Nat) (g : Settings) (l : Lib) : (cmdQueryRequest tag g l).lib.shape = l.shape := by
  refine gated_shape _ _ _ (checks_shape _ _ ?_)
  split <;> rfl

theorem cmdEnterVolume_shape (f : EnterBlock) (g : Settings) (l : Lib) : (cmdEnterVolume f g l).lib.shape = l.shape := by
  unfold cmdEnterVolume
  split
  · exact catalogueCommand_shape _ _ _ rfl
  · exact catalogueCommand_shape _ _ _ (Lib.addVol_shape ..)

theorem cmdPostMessage_shape (f : MessageBlock) (g : Settings) (l : Lib) :
    (cmdPostMessage f g l).lib.shape = l.shape := by
  refine gated_shape _ _ _ (checks_shape _ _ ?_)
  split
  · rfl
  · exact Lib.postAt_shape ..

theorem cmdQueryPrompt_shape (k : Nat) (g : Settings) (l : Lib) : (cmdQueryPrompt k g l).lib.shape = l.shape := by
  refine gated_shape _ _ _ (checks_shape _ _ ?_)
  rw [Applied.good_lib]
  split <;> simp

theorem cmdUpdateAccount_shape (n limit quota : Nat) (g : Settings) (l : Lib) :
    (cmdUpdateAccount n limit quota g l).lib.shape = l.shape := by
  refine accountCommand_shape _ _ _ (onAccount_shape _ _ fun a => ?_)
  dsimp only
  split <;> simp

theorem cmdResumeAccount_shape (n : Nat) (g : Settings) (l : Lib) : (cmdResumeAccount n g l).lib.shape = l.shape := by
  refine onAccount_shape _ _ fun a => ?_
  split <;> simp

theorem cmdClosePeriod_shape (n stamp : Nat) (g : Settings) (l : Lib) :
    (cmdClosePeriod n stamp g l).lib.shape = l.shape := by
  refine accountCommand_shape _ _ _ (onAccount_shape _ _ fun a => ?_)
  split <;> simp

theorem cmdSetLink_shape (source action : Nat) (g : Settings) (l : Lib) :
    (cmdSetLink source action g l).lib.shape = l.shape := by
  refine gated_shape _ _ _ ?_
  split
  · rfl
  · refine checks_shape _ _ ?_
    split <;> rfl

theorem cmdTestReady_shape (g : Settings) (l : Lib) : (cmdTestReady g l).lib.shape = l.shape := by
  unfold cmdTestReady; split <;> rfl

/-- Read Attention clears the flags, and leaves the reserved bits clear (R173). -/
theorem cmdReadAttention_shape (g : Settings) {l : Lib} (h : l.shape = specShape) :
    (cmdReadAttention g l).lib.shape = specShape := by
  refine gated_lib (P := fun m => m.shape = specShape) h ?_
  simp only [Lib.shape, specShape, Shape.mk.injEq] at h
  simp [Lib.shape, specShape, h]

/-- A host command keeps the shape of the records. -/
theorem hostCommand_shape {c : Instr} {f : Settings → Lib → Applied} (hc : hostCommand c = some f) (g : Settings)
    {l : Lib} (h : l.shape = specShape) : (f g l).lib.shape = specShape := by
  have keeps {a : Applied} (ha : a.lib.shape = l.shape) : a.lib.shape = specShape := ha.trans h
  cases c <;> cases hc
  case testReady => exact keeps (cmdTestReady_shape ..)
  case readAttention => exact cmdReadAttention_shape g h
  case cancel => exact keeps (cmdCancel_shape ..)
  case releaseRequest => exact keeps (by unfold cmdReleaseRequest; simp)
  case dismount => exact keeps (cmdDismount_shape ..)
  case queryRequest => exact keeps (cmdQueryRequest_shape ..)
  case resumeLibrary => exact keeps (cmdResumeLibrary_shape ..)
  case scanStation => exact keeps (by unfold cmdScanStation; simp)
  case confirmDrive => exact keeps (cmdConfirmDrive_shape ..)
  case varyDrive => exact keeps (cmdVaryDrive_shape ..)
  case varyPath => exact keeps (cmdVaryPath_shape ..)
  case withdrawMessage => exact keeps (by unfold cmdWithdrawMessage; simp)
  case queryPrompt => exact keeps (cmdQueryPrompt_shape ..)
  case resumeAccount => exact keeps (cmdResumeAccount_shape ..)
  case setLink => exact keeps (cmdSetLink_shape ..)
  case restoreAccessor => exact keeps (by unfold cmdRestoreAccessor; simp)
  case mount => exact keeps (cmdMount_shape ..)
  case mountScratch => exact keeps (cmdMountScratch_shape ..)
  case eject => exact keeps (cmdEject_shape ..)
  case cleanDrive => exact keeps (cmdCleanDrive_shape ..)
  case audit => exact keeps (by unfold cmdAudit; simp)
  case enterVolume => exact keeps (cmdEnterVolume_shape ..)
  case updateVolume => exact keeps (by unfold cmdUpdateVolume; simp)
  case retireVolume => exact keeps (by unfold cmdRetireVolume; simp)
  case releaseToScratch => exact keeps (by unfold cmdReleaseToScratch; simp)
  case openAccount => exact keeps (by unfold cmdOpenAccount; simp)
  case updateAccount => exact keeps (cmdUpdateAccount_shape ..)
  case closePeriod => exact keeps (cmdClosePeriod_shape ..)
  case setCell => exact keeps (by unfold cmdSetCell; simp)
  case defineLibrary => exact keeps (gated_shape _ _ _ (checks_shape _ _ rfl))
  case formatCatalogue => exact keeps (gated_shape _ _ _ (checks_shape _ _ rfl))
  case defineDrive => exact keeps (cmdDefineDrive_shape ..)
  case postMessage => exact keeps (cmdPostMessage_shape ..)
  case setClock => exact keeps (by unfold cmdSetClock; simp)
  case setTimers => exact keeps (by unfold cmdSetTimers; simp)
  case suspendAccount => exact keeps (by unfold cmdSuspendAccount; simp)
  case closeAccount => exact keeps (by unfold cmdCloseAccount; simp)
  case readAccount => exact keeps (by unfold cmdReadAccount; simp)
  case inquire => exact h
  case setAttentionMask => exact keeps (gated_shape _ _ _ (checks_shape _ _ rfl))
  case queryDrive => exact keeps (gated_shape _ _ _ (checks_shape _ _ rfl))
  case readLinks => exact keeps (gated_shape _ _ _ rfl)
  case queryVolume => exact keeps (catalogueCommand_shape _ _ _ rfl)
  case listVolumes => exact keeps (catalogueCommand_shape _ _ _ rfl)
  case listRequests => exact keeps (gated_shape _ _ _ (checks_shape _ _ rfl))

/-! ## Steps -/

/-- The command keeps the shape of the records. -/
def KeepsShape (c : Instr) : Prop :=
  ∀ s t : State, s.lib.shape = specShape → exec c s = .next t → t.lib.shape = specShape

/-- A command whose one next state has the shape of the state it finds. -/
theorem keepsShape_of_next {c : Instr} {f : State → State} (hc : ∀ s, exec c s = .next (f s))
    (hf : ∀ s, s.lib.shape = specShape → (f s).lib.shape = specShape) : KeepsShape c := by
  intro s t h ht
  rw [hc s] at ht
  cases ht
  exact hf s h

theorem event_shape {f : Settings → Lib → Lib} (hf : ∀ g l, (f g l).shape = l.shape) (s : State) :
    (event f s).lib.shape = s.lib.shape := by
  unfold event
  split
  · rfl
  · exact (Lib.settle_shape ..).trans ((hf ..).trans (Lib.opened_shape ..))

theorem quietStep_shape (s : State) : (quietStep s).lib.shape = s.lib.shape := by
  unfold quietStep; split <;> rfl

theorem portStep_shape (f : State → Port) (s : State) : (portStep f s).lib.shape = s.lib.shape := by
  unfold portStep; split <;> rfl

theorem hostStep_shape {f : Settings → Lib → Applied}
    (hf : ∀ g l, l.shape = specShape → (f g l).lib.shape = specShape) {s : State} (h : s.lib.shape = specShape) :
    (hostStep f s).lib.shape = specShape := by
  unfold hostStep
  split
  · exact h
  · exact (Lib.settle_shape ..).trans (hf _ s.lib.begin h)

theorem keyStep_shape (key : KeyName) (n : Nat) (s : State) : (keyStep key n s).lib.shape = s.lib.shape := by
  unfold keyStep
  split
  · rfl
  · simp

theorem keepsShape_of_event {c : Instr} {f : Settings → Lib → Lib} (hc : ∀ s, exec c s = .next (event f s))
    (hf : ∀ g l, (f g l).shape = l.shape) : KeepsShape c :=
  keepsShape_of_next hc fun s h => (event_shape hf s).trans h

theorem keepsShape_of_portStep {c : Instr} {f : State → Port} (hc : ∀ s, exec c s = .next (portStep f s)) :
    KeepsShape c := keepsShape_of_next hc fun s h => (portStep_shape f s).trans h

theorem keepsShape_of_key {c : Instr} {key : KeyName} {n : Nat} (hc : ∀ s, exec c s = keyMeaning key n s) :
    KeepsShape c :=
  keepsShape_of_next hc fun s h => by
    split
    · exact (keyStep_shape key n s).trans h
    · exact (quietStep_shape s).trans h

theorem keepsShape_of_hostCommand {c : Instr} {f : Settings → Lib → Applied} (hc : hostCommand c = some f) :
    KeepsShape c :=
  keepsShape_of_next (fun s => exec_hostCommand c f s hc) fun _ h =>
    hostStep_shape (fun g _ hl => hostCommand_shape hc g hl) h

/-! ## The port -/

theorem applyBlock_shape {s : State} (h : s.lib.shape = specShape) : (applyBlock s).lib.shape = specShape := by
  unfold applyBlock
  dsimp only
  split
  · exact h
  · split
    · exact h
    · exact h
    · split
      · next hc => exact hostStep_shape (fun g _ hl => hostCommand_shape hc g hl) h
      · exact h

theorem blockTaken_shape {s : State} (h : s.lib.shape = specShape) : (blockTaken s).lib.shape = specShape := by
  unfold blockTaken
  dsimp only
  split
  · exact h
  · split
    · exact h
    · generalize (if _ < 0x40 then 0 else _ : Nat) = n
      split
      · exact h
      · split
        · exact applyBlock_shape h
        · exact h

theorem takeBlockByte_shape (byte : Byte) {s : State} (h : s.lib.shape = specShape) :
    (takeBlockByte byte s).lib.shape = specShape := by
  unfold takeBlockByte
  dsimp only
  split
  · exact h
  · split
    · exact h
    · exact blockTaken_shape (s := { s with port := _ }) h

theorem takeOutByte_shape (byte : Byte) {s : State} (h : s.lib.shape = specShape) :
    (takeOutByte byte s).lib.shape = specShape := by
  unfold takeOutByte
  dsimp only
  split
  · exact applyBlock_shape (s := { s with port := _ }) h
  · exact h

theorem handshake_shape (byte : Byte) {s : State} (h : s.lib.shape = specShape) :
    (handshake byte s).lib.shape = specShape := by
  unfold handshake
  split
  · exact h
  · split
    · exact h
    · split
      · exact takeBlockByte_shape byte h
      · exact takeOutByte_shape byte h
      · exact h

/-! ## Power, the link and the clock -/

theorem powerOn_keepsShape (unit : Nat) (kept doorOpen serviceOpen : Bool) (slots : List Reading) :
    KeepsShape (.powerOn unit kept doorOpen serviceOpen slots) := by
  refine keepsShape_of_next (fun _ => rfl) fun s h => ?_
  dsimp only
  rw [Lib.settle_shape, Lib.storeCheck_shape, Lib.answers_shape]
  exact Lib.powered_shape _ _ h

theorem powerFailWarning_keepsShape : KeepsShape .powerFailWarning := by
  refine keepsShape_of_next (fun _ => rfl) fun s h => ?_
  split <;> exact h

theorem requestSense_keepsShape : KeepsShape .requestSense := by
  refine keepsShape_of_next (fun _ => rfl) fun s h => ?_
  split <;> exact h

theorem ackStallExpiry_keepsShape : KeepsShape .ackStallExpiry := by
  refine keepsShape_of_next (fun _ => rfl) fun s h => ?_
  have hport := (portStep_shape (fun s => if isDue s.port.stall then s.port.ends else s.port) s).trans h
  split
  · exact (event_shape (fun _ _ => rfl) _).trans hport
  · exact hport

theorem linkReset_keepsShape : KeepsShape .linkReset := by
  refine keepsShape_of_next (fun _ => rfl) fun s h => ?_
  split
  · exact h
  · exact (Lib.settle_shape ..).trans (Lib.linkReset_shape _ s.lib.begin h)

theorem invalidCommand_keepsShape (code : Nat) : KeepsShape (.invalidCommand code) := by
  refine keepsShape_of_next (fun _ => rfl) fun s h => ?_
  split
  · exact (portStep_shape _ s).trans h
  · exact hostStep_shape (fun _ _ hl => hl) h

theorem clockSecond_keepsShape : KeepsShape .clockSecond := by
  refine keepsShape_of_next (fun _ => rfl) fun s h => ?_
  split
  · exact h
  · exact (Lib.tick_shape _).trans h

/-- Each command keeps the shape of the records. -/
theorem keepsShape (c : Instr) : KeepsShape c := by
  cases c
  case powerOn => exact powerOn_keepsShape _ _ _ _ _
  case powerFailWarning => exact powerFailWarning_keepsShape
  case requestSense => exact requestSense_keepsShape
  case ackStallExpiry => exact ackStallExpiry_keepsShape
  case linkReset => exact linkReset_keepsShape
  case invalidCommand => exact invalidCommand_keepsShape _
  case clockSecond => exact clockSecond_keepsShape
  case byteHandshake => exact keepsShape_of_next (fun _ => rfl) fun _ h => handshake_shape _ h
  case selection | selectDropped | ackRelease | endingComplete => exact keepsShape_of_portStep fun _ => rfl
  case panelMessageDiscarded | floorMessageDiscarded =>
    exact keepsShape_of_next (fun _ => rfl) fun s h => (quietStep_shape s).trans h
  case keyNext | keyAccept | keyRefuse | keyDone => exact keepsShape_of_key fun _ => rfl
  case formatClearing | doorOpened | doorClosed | serviceDoorOpened | serviceDoorClosed | hello | auditPhase
      | startLimitExpiry | stepLimitExpiry | queueStallExpiry | manualDeadlineExpiry | hostMessageDeadlineExpiry
      | reAnnounceExpiry | periodTimerExpiry | picked | pickEmpty | placed | placeBlocked | scanDone =>
    exact keepsShape_of_event (fun _ => rfl) (by simp)
  case enterReady | slot | cellSeen | moveDone | gripper | accessorFaultReport | loadedReady | loadFailed
      | unloadPressed | reelRemoved | cleanNeeded | online | offline | holding | reconcileQueryExpiry
      | threadingLimitExpiry | unloadLimitExpiry =>
    refine keepsShape_of_event (fun _ => rfl) fun g l => ?_
    split <;> simp
  case unloaded | driveFaultReport =>
    refine keepsShape_of_event (fun _ => rfl) fun g l => ?_
    split
    · split <;> simp
    · rfl
  all_goals exact keepsShape_of_hostCommand rfl

/-- Settles O6: a step takes one command, and each command keeps the shape. -/
theorem recordShapeKept : Obligations.RecordShapeKept := by
  unfold Obligations.RecordShapeKept
  intro s t h ht
  unfold step at ht
  split at ht
  · cases ht; exact h
  · exact keepsShape _ _ t (by exact h) ht

end Sys2Proof.Machine
end

section
/-! The drives (chapter 03): what the shared operations of the drive table come to, and the reports and limits of a
drive that they serve. -/

namespace Sys2Proof.Machine

/-! ## Reports of a drive -/

theorem drives_length_of_shape {l : Lib} (h : l.shape = specShape) : l.drives.length = 16 := congrArg Shape.drives h

/-- A report of a drive whose number is in range. -/
theorem exec_driveEvent {c : Instr} {d : Nat} {f : Settings → Lib → Lib} {s : State} (hl : s.live) (hd : d < 16)
    (hc : exec c s = driveEvent d f s) : exec c s = .next (s.settled (f s.set s.found)) :=
  exec_event c _ s hl hc _ (if_pos (decide_eq_true hd))

/-- A report of a drive that notes nothing: the step ends with what it leaves. -/
theorem exec_driveEvent_quiet {c : Instr} {d : Nat} {f : Settings → Lib → Lib} {s : State} (hl : s.live) (hd : d < 16)
    (hc : exec c s = driveEvent d f s) {l : Lib} (hf : f s.set s.found = l) (hn : l.notes = s.found.notes) :
    exec c s = .next { s with lib := l } := by
  rw [exec_driveEvent hl hd hc, hf, settled_quiet s (hn.trans (found_notes s))]

namespace Lib

/-! ## Lookups after an update -/

theorem drive_of_drives {l m : Lib} (h : m.drives = l.drives) (d : Nat) : m.drive d = l.drive d := by
  unfold drive; rw [h]

theorem req?_of_live {l m : Lib} (h : m.reqs.live = l.reqs.live) (t : Nat) : m.req? t = l.req? t := by
  unfold req?; rw [h]

theorem vol?_of_vols {l m : Lib} (h : m.cat.vols = l.cat.vols) (s : Serial) : m.vol? s = l.vol? s := by
  unfold vol?; rw [h]

/-- One drive changed: that drive, and the others as they were. -/
theorem drive_of_modify {l m : Lib} {d : Nat} {f : Drive → Drive} (h : m.drives = l.drives.modify d f)
    (hd : d < l.drives.length) : m.drive d = f (l.drive d) ∧ ∀ e, e ≠ d → m.drive e = l.drive e :=
  ⟨(drive_of_drives h d).trans (drive_updDrive_self d f l hd),
    fun e he => (drive_of_drives h e).trans (drive_updDrive_other d e f l he)⟩

@[simp] theorem updDrive_updDrive (d : Nat) (f f' : Drive → Drive) (l : Lib) :
    (l.updDrive d f).updDrive d f' = l.updDrive d fun v => f' (f v) := by
  unfold updDrive; dsimp only; rw [List.modify_modify_eq]; rfl

/-- Two changes of a drive that agree on it as it stands are one. -/
theorem updDrive_congr {d : Nat} {f f' : Drive → Drive} {l : Lib} (h : f (l.drive d) = f' (l.drive d)) :
    l.updDrive d f = l.updDrive d f' := by
  have hdrives : l.drives.modify d f = l.drives.modify d f' := by
    refine List.ext_getElem? fun e => ?_
    rw [List.getElem?_modify, List.getElem?_modify]
    cases he : l.drives[e]? with
    | none => rfl
    | some v =>
      by_cases hde : d = e
      · have hv : l.drive d = v := by simp [drive, List.getD_eq_getElem?_getD, hde, he]
        rw [hv] at h
        simp [hde, h]
      · simp [hde]
  unfold updDrive; rw [hdrives]

theorem updDrive_of_same {d : Nat} {f : Drive → Drive} {l : Lib} (h : f (l.drive d) = l.drive d) :
    l.updDrive d f = l := by
  rw [updDrive_congr (f' := id) h]
  unfold updDrive; rw [List.modify_id]

/-- A field of a drive that its change leaves alone. -/
theorem drive_updDrive_field {α : Type} (p : Drive → α) (d e : Nat) {f : Drive → Drive} (l : Lib)
    (hf : ∀ v, p (f v) = p v) : p ((l.updDrive d f).drive e) = p (l.drive e) := by
  by_cases he : e = d
  · by_cases hd : d < l.drives.length
    · rw [he, drive_updDrive_self d f l hd, hf]
    · simp [he, drive, updDrive, List.getD_eq_getElem?_getD, hd]
  · rw [drive_updDrive_other d e f l he]

end Lib

/-! ## Leaving MOUNTED, and the entries to REWINDING and FAULTED -/

/-- The drive as it leaves the state it is in: a MOUNTED one has its mounted seconds counted (R56). -/
def Drive.closed (g : Settings) (v : Drive) : Drive :=
  match v.state with
  | .mounted since => { v with defn := v.defn.map fun x =>
      { x with lifeSeconds := satAdd max32 x.lifeSeconds (since.elapsed g.clock) } }
  | _ => v

/-- The drive at its entry to REWINDING (R57). -/
def Drive.rewound (g : Settings) (v : Drive) : Drive :=
  { v.closed g with state := .rewinding, threadLeft := none, unloadLeft := some g.timers.unload }

/-- The drive at its entry to FAULTED (R55 to R58). -/
def Drive.failed (g : Settings) (code : Nat) (v : Drive) : Drive :=
  { v.closed g with state := .faulted, fault := code, threadLeft := none, unloadLeft := none }

theorem Drive.closed_eq (g : Settings) (v : Drive) : v.closed g = { v with defn := (v.closed g).defn } := by
  unfold Drive.closed; split <;> rfl

@[simp] theorem Drive.closed_serving (g : Settings) (v : Drive) : (v.closed g).serving = v.serving := by
  rw [Drive.closed_eq]
@[simp] theorem Drive.rewound_serving (g : Settings) (v : Drive) : (v.rewound g).serving = v.serving :=
  v.closed_serving g
@[simp] theorem Drive.failed_serving (g : Settings) (code : Nat) (v : Drive) : (v.failed g code).serving = v.serving :=
  v.closed_serving g

namespace Lib

theorem closeMounted_eq (g : Settings) (d : Nat) (l : Lib) : l.closeMounted g d = l.updDrive d (Drive.closed g) := by
  unfold closeMounted
  split
  · next since h => exact updDrive_congr (by simp [Drive.closed, h])
  · next h => exact (updDrive_of_same (by unfold Drive.closed; split <;> simp_all)).symm

theorem enterRewinding_eq (g : Settings) (d : Nat) (l : Lib) :
    l.enterRewinding g d = l.updDrive d (Drive.rewound g) := by
  unfold enterRewinding; rw [closeMounted_eq, updDrive_updDrive]; rfl

theorem orderUnload_eq (g : Settings) (d : Nat) (l : Lib) :
    l.orderUnload g d = (l.send (.unload d)).updDrive d (Drive.rewound g) :=
  enterRewinding_eq g d _

theorem enterFaulted_eq (g : Settings) (d code : Nat) (l : Lib) :
    l.enterFaulted g d code = (l.updDrive d (Drive.failed g code)).raiseDrive .driveFault d := by
  unfold enterFaulted; rw [closeMounted_eq, updDrive_updDrive]; rfl

end Lib

/-! ## OFFLINE and ONLINE -/

namespace Lib

theorem offlineReport_of_idle (g : Settings) {d : Nat} {l : Lib} (hstate : (l.drive d).state = .idle) :
    l.offlineReport g d = l.updDrive d fun v => { v with detached := true, state := .offline } := by
  have hidle : ((l.updDrive d fun v => { v with detached := true }).drive d).state = .idle :=
    (drive_updDrive_field Drive.state d d l (by intro _; rfl)).trans hstate
  unfold offlineReport
  simp only [hidle, updDrive_updDrive]

theorem onlineReport_of_attached {d : Nat} {l : Lib} (h : (l.drive d).detached = false) : l.onlineReport d = l := by
  unfold onlineReport; rw [h]; rfl

/-- A detached drive that reports itself back in READY while OFFLINE (R47). -/
theorem onlineReport_of_ready {d : Nat} {l : Lib} (hdetached : (l.drive d).detached = true)
    (hready : l.start.state = .ready) (hstate : (l.drive d).state = .offline) :
    l.onlineReport d = ((l.updDrive d fun v =>
      { v with detached := false, late := false, queried := true
               defn := v.defn.map fun x => { x with confirmed := false } }).raiseDrive .driveAttached d).send
        (.holdingQuery d) := by
  have hoffline : ((l.updDrive d fun v => { v with
      detached := false, late := false, defn := v.defn.map fun x => { x with confirmed := false } }).drive d).state
      = .offline := (drive_updDrive_field Drive.state d d l (by intro _; rfl)).trans hstate
  unfold onlineReport
  simp only [hdetached, if_true, updDrive_start, hready, updDrive_updDrive]
  rw [if_pos (by exact hoffline)]
  unfold askHolding raiseDrive raise
  simp [updDrive, List.modify_modify_eq]
  rfl

end Lib

/-- Settles O38: each row is the drive's one change, and ONLINE notes the source raised and asks the drive. -/
theorem detachAndReattach : Obligations.DetachAndReattach := by
  unfold Obligations.DetachAndReattach
  intro d s hl hshape hd
  have hlen : d < s.found.drives.length := by rw [drives_length_of_shape (found_shape hshape)]; exact hd
  refine ⟨fun hidle => ?_, fun hdetached hready hoffline => ⟨_, exec_driveEvent hl hd rfl, ?_⟩, fun hattached => ?_⟩
  · exact exec_driveEvent_quiet hl hd rfl (Lib.offlineReport_of_idle s.set hidle) rfl
  · rw [Lib.onlineReport_of_ready hdetached hready hoffline]
    exact ⟨Lib.drive_updDrive_self d _ s.found hlen, rfl, rfl, fun e he => Lib.drive_updDrive_other d e _ s.found he⟩
  · exact exec_driveEvent_quiet hl hd rfl (Lib.onlineReport_of_attached hattached) rfl

end Sys2Proof.Machine
end

section
/-! Threading that fails, UNLOAD-PRESSED and the unload limit (R55 to R58). -/

namespace Sys2Proof.Machine

/-! ## What is sent stays sent -/

namespace Lib

theorem display_sent (x : Nat × Prompt) (force : Bool) (l : Lib) : l.out <+: (l.display x force).out :=
  List.prefix_append _ _

theorem presentFirst_sent (l : Lib) : l.out <+: l.presentFirst.out := by
  unfold presentFirst; split
  · exact display_sent _ _ l
  · exact List.prefix_append _ _

theorem emptySlot_sent (k : Nat) (l : Lib) : l.out <+: (l.emptySlot k).out := by
  unfold emptySlot; split
  · exact List.prefix_refl _
  · dsimp only; split
    · exact presentFirst_sent (l.setPrompt k none)
    · exact List.prefix_refl _

theorem postAt_sent (g : Settings) (k : Nat) (d : Draft) (l : Lib) : l.out <+: (l.postAt g k d).out := by
  have shown : ∀ x, l.out <+: ((l.fillSlot g k d).display x false).out := fun x => display_sent x false _
  unfold postAt; dsimp only; split
  · exact shown _
  · split
    · exact shown _
    · exact List.prefix_refl _

theorem offerSlot_sent (g : Settings) (l : Lib) : l.out <+: (l.offerSlot g).out := by
  unfold offerSlot; split
  · next w _ _ _ => exact postAt_sent g _ _ (l.dropWait w.tag)
  · exact List.prefix_refl _

theorem withdrawSlot_sent (g : Settings) (k : Nat) (l : Lib) : l.out <+: (l.withdrawSlot g k).out := by
  unfold withdrawSlot; split
  · exact List.prefix_refl _
  · exact (emptySlot_sent k l).trans (offerSlot_sent g _)

theorem withdrawWhere_sent (g : Settings) (test : Prompt → Bool) (l : Lib) :
    l.out <+: (l.withdrawWhere g test).out := by
  unfold withdrawWhere
  generalize l.numbered.filter _ = xs
  induction xs generalizing l with
  | nil => exact List.prefix_refl _
  | cons x xs ih => exact (withdrawSlot_sent g x.1 l).trans (ih _)

theorem joinPromptWaits_out (kind : PromptKind) (t : Nat) (x : PromptSubject) (n : Nat) (l : Lib) :
    (l.joinPromptWaits kind t x n).out = l.out := by
  unfold joinPromptWaits; split <;> rfl

theorem postRequest_sent (g : Settings) (kind : PromptKind) (t : Nat) (x : PromptSubject) (n : Nat) (l : Lib) :
    l.out <+: (l.postRequest g kind t x n).out := by
  have posted : ∀ (m : Lib) k d, l.out <+: m.out → l.out <+: ((m.dropWait t).postAt g k d).out :=
    fun m k d h => h.trans (postAt_sent g k d (m.dropWait t))
  have emptied : ∀ (m : Lib) k d, l.out <+: m.out → l.out <+: (((m.dropWait t).emptySlot k).postAt g k d).out :=
    fun m k d h => (h.trans (emptySlot_sent k (m.dropWait t))).trans (postAt_sent g k d _)
  have hwithdrawn := withdrawWhere_sent g (fun p => p.isRequest && p.subject.tag = some t) l
  unfold postRequest
  dsimp only
  split
  · exact emptied _ _ _ hwithdrawn
  · split
    · exact posted _ _ _ hwithdrawn
    · split
      · exact emptied _ _ _ hwithdrawn
      · rw [joinPromptWaits_out]; exact hwithdrawn

/-! ## A request's state set -/

theorem setReqState_sent (g : Settings) (t : Nat) (st : ReqState) (l : Lib) : l.out <+: (l.setReqState g t st).out := by
  unfold setReqState; split
  · exact List.prefix_refl _
  · have hwithdrawn : ∀ f test, l.out <+: ((l.updReq t f).withdrawNotice g .queueStall test).out :=
      fun f _ => withdrawWhere_sent g _ (l.updReq t f)
    dsimp only
    split <;> split
    · exact hwithdrawn _ _
    · exact List.prefix_refl _
    · exact hwithdrawn _ _
    · exact List.prefix_refl _

/-- A request's state says nothing of the sources raised; it may wake the dispatcher (R95). -/
@[simp] theorem setReqState_raised (g : Settings) (t : Nat) (st : ReqState) (l : Lib) :
    (l.setReqState g t st).notes.raised = l.notes.raised := by
  unfold setReqState; split
  · rfl
  · dsimp only; split <;> split <;> simp

@[simp] theorem reqUnmounted_drives (g : Settings) (t : Nat) (l : Lib) : (l.reqUnmounted g t).drives = l.drives := by
  unfold reqUnmounted; split
  · rfl
  · split <;> simp

@[simp] theorem reqRewinding_drives (g : Settings) (t : Nat) (l : Lib) : (l.reqRewinding g t).drives = l.drives := by
  unfold reqRewinding; simp

theorem req?_reqUnmounted_self (g : Settings) (t : Nat) (l : Lib) :
    (l.reqUnmounted g t).req? t = (l.req? t).map fun q => { q with accruedFrom := none } := by
  unfold reqUnmounted
  cases hr : l.req? t with
  | none => exact hr
  | some r =>
    dsimp only
    cases hfrom : r.accruedFrom with
    | none => rw [hr]; simp [← hfrom]
    | some from_ =>
      dsimp only
      rw [req?_of_live (congrArg RequestTable.live (accrue_reqs _ _ _)),
        req?_updReq_self t _ l (by intro q; rfl), hr]

theorem req?_reqRewinding_self (g : Settings) (t : Nat) (l : Lib) :
    (l.reqRewinding g t).req? t = (l.req? t).map fun q =>
      { q with accruedFrom := none, state := .rewinding, stallLeft := none, qseq := none } := by
  unfold reqRewinding
  rw [req?_setReqState_self, req?_reqUnmounted_self, Option.map_map]
  rfl

/-! ## The request of a faulted drive -/

/-- The fault of a drive that serves a request not in MANUAL: the request's code is fixed, and its DRIVE-ATTENTION
is posted (R57). -/
theorem faultServing_of_serving (g : Settings) {d t : Nat} (c : Code) {l : Lib} {r : Request}
    (hserving : (l.drive d).serving = some t) (hr : l.req? t = some r) (hmanual : r.state ≠ .manual) :
    l.faultServing g d c = (l.fixCode t c).postAttention g d (some t) := by
  unfold faultServing
  simp [hserving, hr, hmanual]

theorem postAttention_only (g : Settings) (d t : Nat) (l : Lib) : PostOnly l (l.postAttention g d (some t)) :=
  postRequest_only g _ t _ _ l

/-! ## Threading that fails -/

/-- The records of a drive that fails in THREADING, before its DRIVE-ATTENTION is posted (R55). -/
def threadingFailed (g : Settings) (d t code : Nat) (c : Code) (l : Lib) : Lib :=
  (((l.enterFaulted g d code).send (.unload d)).setReqState g t .rewinding).fixCode t c

theorem threadingFailed_drives (g : Settings) (d t code : Nat) (c : Code) (l : Lib) :
    (l.threadingFailed g d t code c).drives = l.drives.modify d (Drive.failed g code) := by
  unfold threadingFailed; rw [enterFaulted_eq]; simp

theorem threadingFailed_cat (g : Settings) (d t code : Nat) (c : Code) (l : Lib) :
    (l.threadingFailed g d t code c).cat = l.cat := by
  unfold threadingFailed; rw [enterFaulted_eq]; simp

theorem threadingFailed_raised (g : Settings) (d t code : Nat) (c : Code) (l : Lib) :
    (l.threadingFailed g d t code c).notes.raised
      = l.notes.raised ++ [{ source := .driveFault, drive := some d, columns := none, tag := none }] := by
  unfold threadingFailed
  refine (setReqState_raised g t .rewinding _).trans ?_
  rw [enterFaulted_eq]; rfl

theorem threadingFailed_sends (g : Settings) (d t code : Nat) (c : Code) (l : Lib) :
    Msg.unload d ∈ (l.threadingFailed g d t code c).out :=
  (setReqState_sent g t .rewinding _).subset (by simp)

theorem req?_threadingFailed (g : Settings) (d code : Nat) {t : Nat} (c : Code) {l : Lib} {r : Request}
    (hr : l.req? t = some r) :
    (l.threadingFailed g d t code c).req? t
      = some { r with state := .rewinding, stallLeft := none, qseq := none, code := some (r.code.getD c) } := by
  have hsent : ((l.enterFaulted g d code).send (.unload d)).req? t = some r := by
    rw [enterFaulted_eq]; exact hr
  unfold threadingFailed
  rw [req?_fixCode_self, req?_setReqState_self, hsent]
  rfl

theorem failThreading_eq (g : Settings) {d t : Nat} (code : Nat) (c : Code) {l : Lib} {r : Request}
    (hserving : (l.drive d).serving = some t) (hr : l.req? t = some r) :
    l.failThreading g d code c = (l.threadingFailed g d t code c).postAttention g d (some t) := by
  have hserving' : ∀ m : Lib, m.drives = l.drives.modify d (Drive.failed g code) → (m.drive d).serving = some t :=
    fun m hm => (congrArg Drive.serving (drive_of_drives hm d)).trans
      ((drive_updDrive_field Drive.serving d d l (by intro v; simp)).trans hserving)
  have hsent : (((l.enterFaulted g d code).send (.unload d)).drive d).serving = some t :=
    hserving' _ (by rw [enterFaulted_eq]; rfl)
  have hrewinding : (((l.enterFaulted g d code).send (.unload d)).setReqState g t .rewinding).req? t
      = some { r with state := .rewinding, stallLeft := none, qseq := none } := by
    rw [req?_setReqState_self]
    rw [enterFaulted_eq]
    exact congrArg (Option.map _) hr
  unfold failThreading
  simp only [hsent]
  exact faultServing_of_serving g c (hserving' _ (by rw [enterFaulted_eq]; simp)) hrewinding (by simp)

/-- A drive that fails in THREADING (R55). -/
structure ThreadingFailed (d t code : Nat) (c : Code) (r : Request) (l m : Lib) : Prop where
  state : (m.drive d).state = .faulted
  fault : (m.drive d).fault = code
  limit : (m.drive d).threadLeft = none
  sends : Msg.unload d ∈ m.out
  raises : { source := .driveFault, drive := some d, columns := none, tag := none } ∈ m.notes.raised
  request : ∃ q, m.req? t = some q ∧ q.state = .rewinding ∧ q.code = some (r.code.getD c)
  others : ∀ e, e ≠ d → m.drive e = l.drive e
  cat : m.cat = l.cat

theorem failThreading_fails (g : Settings) {d t : Nat} (code : Nat) (c : Code) {l : Lib} {r : Request}
    (hd : d < l.drives.length) (hserving : (l.drive d).serving = some t) (hr : l.req? t = some r) :
    ThreadingFailed d t code c r l (l.failThreading g d code c) := by
  rw [failThreading_eq g code c hserving hr]
  have hposted := postAttention_only g d t (l.threadingFailed g d t code c)
  obtain ⟨hself, hothers⟩ := drive_of_modify (hposted.drives.trans (threadingFailed_drives g d t code c l)) hd
  exact {
    state := by rw [hself]; rfl
    fault := by rw [hself]; rfl
    limit := by rw [hself]; rfl
    sends := (postRequest_sent g _ t _ _ _).subset (threadingFailed_sends g d t code c l)
    raises := by rw [hposted.notes, threadingFailed_raised]; simp
    request := ⟨_, (req?_of_live hposted.live t).trans (req?_threadingFailed g d code c hr), rfl, rfl⟩
    others := hothers
    cat := hposted.cat.trans (threadingFailed_cat g d t code c l) }

/-- A fault report of a THREADING drive: its code is the drive's, and the request's is DRIVE-FAULT (R58). -/
theorem driveFaulted_of_threading (g : Settings) {d : Nat} (code : Nat) {l : Lib}
    (hstate : (l.drive d).state = .threading) :
    l.driveFaulted g d code = (l.updDrive d fun v => { v with fault := code }).failThreading g d code .driveFault := by
  have hthreading := (drive_updDrive_field Drive.state d d (f := fun v => { v with fault := code }) l
    fun _ => rfl).trans hstate
  unfold driveFaulted
  simp only [hthreading]

end Lib

/-- Settles O35: the three failures are one, with the drive's fault code and the request's code. -/
theorem threadingFails : Obligations.ThreadingFails := by
  unfold Obligations.ThreadingFails
  intro d tag code r s hl hshape hd hlo hhi hthreading hserving hr fails
  have hlen : d < s.found.drives.length := by rw [drives_length_of_shape (found_shape hshape)]; exact hd
  have fails_of {c : Instr} {l m : Lib} {fault : Nat} {fixed : Code} (hexec : exec c s = .next (s.settled m))
      (hm : Lib.ThreadingFailed d tag fault fixed r l m) (hothers : ∀ e, e ≠ d → l.drive e = s.found.drive e)
      (hcat : l.cat = s.found.cat) : fails c fault fixed :=
    ⟨m, hexec, hm.state, hm.fault, hm.limit, hm.sends, hm.raises, hm.request,
      fun e he => (hm.others e he).trans (hothers e he), hm.cat.trans hcat⟩
  refine ⟨?_, fun hdue => ?_, ?_⟩
  · have hexec := exec_driveEvent (c := .loadFailed d) hl hd rfl
    rw [Lib.loadFailedReport, if_pos hthreading] at hexec
    exact fails_of hexec (Lib.failThreading_fails s.set 0 .loadFailed hlen hserving hr) (fun _ _ => rfl) rfl
  · have hexec := exec_driveEvent (c := .threadingLimitExpiry d) hl hd rfl
    rw [Lib.threadingExpired, if_pos (by simp [isDue, hdue])] at hexec
    exact fails_of hexec (Lib.failThreading_fails s.set 0 .loadFailed hlen hserving hr) (fun _ _ => rfl) rfl
  · have hexec := exec_driveEvent (c := .driveFaultReport d code) hl hd rfl
    rw [if_pos (by simp [hlo, hhi]), Lib.driveFaulted_of_threading s.set code hthreading] at hexec
    refine fails_of hexec (Lib.failThreading_fails s.set code .driveFault (by simpa using hlen) ?_ hr)
      (fun e he => Lib.drive_updDrive_other d e _ _ he) rfl
    rw [Lib.drive_updDrive_field Drive.serving d d _ (by intro _; rfl)]
    exact hserving

/-! ## UNLOAD-PRESSED and the unload limit -/

namespace Lib

theorem dismountDrive_drives (g : Settings) (d : Nat) (l : Lib) : (l.dismountDrive g d).drives = l.drives := by
  unfold dismountDrive; split
  · exact reqRewinding_drives g _ l
  · rfl

/-- The request of the drive leaves MOUNTED with it (R56, R57). -/
theorem req?_dismountDrive_self (g : Settings) {d t : Nat} {l : Lib} {r : Request}
    (hserving : (l.drive d).serving = some t) (hr : l.req? t = some r) :
    (l.dismountDrive g d).req? t
      = some { r with accruedFrom := none, state := .rewinding, stallLeft := none, qseq := none } := by
  unfold dismountDrive
  simp only [hserving]
  rw [req?_reqRewinding_self, hr]
  rfl

/-- A drive fails in REWINDING: its record, and the code fixed for its request (R57). -/
theorem failRewinding_eq (g : Settings) {d t : Nat} (code : Nat) {l : Lib} {r : Request}
    (hserving : (l.drive d).serving = some t) (hr : l.req? t = some r) (hmanual : r.state ≠ .manual) :
    l.failRewinding g d code
      = (((l.updDrive d (Drive.failed g code)).raiseDrive .driveFault d).fixCode t .driveFault).postAttention g d
          (some t) := by
  unfold failRewinding
  rw [enterFaulted_eq]
  refine faultServing_of_serving g _ ?_ hr hmanual
  exact (drive_updDrive_field Drive.serving d d l (by intro v; simp)).trans hserving

end Lib

/-- Settles O36: the press starts the rewind of drive and request; the limit faults the drive. -/
theorem unloadPressedAndLimit : Obligations.UnloadPressedAndLimit := by
  unfold Obligations.UnloadPressedAndLimit
  intro d s hl hshape hd
  have hlen : d < s.found.drives.length := by rw [drives_length_of_shape (found_shape hshape)]; exact hd
  refine ⟨fun since hmounted => ?_, fun tag r hrewinding hdue hserving hr hmanual => ?_⟩
  · have hexec := exec_driveEvent (c := .unloadPressed d) hl hd rfl
    simp only [Lib.unloadPressedReport, hmounted, Lib.enterRewinding_eq] at hexec
    obtain ⟨hself, hothers⟩ := Lib.drive_of_modify (l := s.found)
      (Lib.dismountDrive_drives s.set d (s.found.updDrive d (Drive.rewound s.set))) hlen
    refine ⟨_, hexec, by rw [hself]; rfl, by rw [hself]; rfl, fun tag r hserving hr => ?_, hothers⟩
    refine ⟨_, Lib.req?_dismountDrive_self s.set ?_ hr, rfl, rfl⟩
    exact (Lib.drive_updDrive_field Drive.serving d d _ (by intro v; simp)).trans hserving
  · have hexec := exec_driveEvent (c := .unloadLimitExpiry d) hl hd rfl
    rw [Lib.unloadExpired, if_pos (by simp [isDue, hdue]), Lib.failRewinding_eq s.set 0 hserving hr hmanual] at hexec
    have hposted := Lib.postAttention_only s.set d tag
      (((s.found.updDrive d (Drive.failed s.set 0)).raiseDrive .driveFault d).fixCode tag .driveFault)
    obtain ⟨hself, hothers⟩ := Lib.drive_of_modify (l := s.found) hposted.drives hlen
    have hfixed : (((s.found.updDrive d (Drive.failed s.set 0)).raiseDrive .driveFault d).fixCode tag .driveFault).req? tag
        = some { r with code := some (r.code.getD .driveFault) } := by
      rw [Lib.req?_fixCode_self]
      exact congrArg (Option.map _) hr
    refine ⟨_, hexec, by rw [hself]; rfl, by rw [hself]; rfl, by rw [hself]; rfl, ?_,
      ⟨_, (Lib.req?_of_live hposted.live tag).trans hfixed, rfl⟩, hothers⟩
    rw [hposted.notes]
    exact List.mem_append_right _ (List.mem_singleton_self _)

end Sys2Proof.Machine
end

section
/-! LOADED-READY, UNLOADED, HOLDING and the end of a reconcile query (R54, R56, R60, R180). -/

namespace Sys2Proof.Machine

/-! ## A drive mounted -/

/-- The drive at its entry to MOUNTED (R54). -/
def Drive.mounted (g : Settings) (v : Drive) : Drive :=
  { v with
    state := .mounted g.clock, threadLeft := none
    defn := v.defn.map fun x =>
      { x with lifeMounts := satAdd max32 x.lifeMounts 1, sinceClean := satAdd max16 x.sinceClean 1 } }

/-- The drive with cleaning-due set where mounts since cleaning has reached the threshold (R61). -/
def Drive.cleaningChecked (v : Drive) : Drive :=
  { v with cleanDue := v.cleanDue || v.defn.any fun x => x.threshold ≤ x.sinceClean }

namespace Lib

theorem checkCleaning_drives (d : Nat) (l : Lib) :
    (l.checkCleaning d).drives = (l.updDrive d Drive.cleaningChecked).drives := by
  have same (h : ((l.drive d).cleanDue || (l.drive d).defn.any fun x => decide (x.threshold ≤ x.sinceClean))
      = (l.drive d).cleanDue) : l.drives = (l.updDrive d Drive.cleaningChecked).drives := by
    rw [updDrive_of_same (by unfold Drive.cleaningChecked; rw [h])]
  unfold checkCleaning
  split
  · next x hx =>
    split
    · next hdue =>
      simp only [Bool.and_eq_true, decide_eq_true_eq] at hdue
      rw [raiseDrive_drives, updDrive_congr (f' := Drive.cleaningChecked)]
      simp [Drive.cleaningChecked, hx, hdue]
    · next hdue =>
      refine same ?_
      cases hc : (l.drive d).cleanDue <;> simp_all
  · next hx => exact same (by simp [hx])

/-- The check for cleaning changes the drive and the notes at most. -/
theorem checkCleaning_only (d : Nat) (l : Lib) :
    l.checkCleaning d = { l with drives := (l.checkCleaning d).drives, notes := (l.checkCleaning d).notes } := by
  unfold checkCleaning
  split
  · split <;> rfl
  · rfl

@[simp] theorem reqMounted_drives (g : Settings) (t : Nat) (l : Lib) : (l.reqMounted g t).drives = l.drives := by
  unfold reqMounted
  split
  · rfl
  · dsimp only
    rw [accrue_drives]
    split <;> simp

theorem req?_reqMounted_self (g : Settings) (t : Nat) (l : Lib) :
    (l.reqMounted g t).req? t = (l.req? t).map fun q => { q with
      state := .mounted, stallLeft := none, qseq := none, mountedAt := some g.clock, accruedFrom := some g.clock } := by
  have hupdated : ((l.setReqState g t .mounted).updReq t fun q =>
      { q with mountedAt := some g.clock, accruedFrom := some g.clock }).req? t = (l.req? t).map fun q => { q with
        state := .mounted, stallLeft := none, qseq := none, mountedAt := some g.clock, accruedFrom := some g.clock } := by
    rw [req?_updReq_self t _ _ (by intro q; rfl), req?_setReqState_self, Option.map_map]
    rfl
  unfold reqMounted
  split
  · next hr => rw [hr]; rfl
  · dsimp only
    rw [← hupdated]
    refine req?_of_live ?_ t
    rw [accrue_reqs]
    split <;> simp

theorem mountAt_drives (g : Settings) (d t : Nat) (l : Lib) :
    (l.mountAt g d t).drives = l.drives.modify d fun v => (v.mounted g).cleaningChecked := by
  unfold mountAt
  rw [checkCleaning_drives, updDrive_drives, reqMounted_drives, updDrive_drives, List.modify_modify_eq]
  rfl

theorem req?_mountAt_self (g : Settings) (d t : Nat) (l : Lib) :
    (l.mountAt g d t).req? t = (l.req? t).map fun q => { q with
      state := .mounted, stallLeft := none, qseq := none, mountedAt := some g.clock, accruedFrom := some g.clock } := by
  unfold mountAt
  rw [checkCleaning_only]
  exact req?_reqMounted_self g t _

/-- LOADED-READY in THREADING of a request that is not to be cancelled mounts the drive (R54). -/
theorem loadedReport_of_threading (g : Settings) {d t : Nat} (raw : Option Serial) {l : Lib} {r : Request}
    (hstate : (l.drive d).state = .threading) (hserving : (l.drive d).serving = some t) (hr : l.req? t = some r)
    (hcancel : r.cancelPending = false) :
    l.loadedReport g d raw
      = (l.updDrive d fun v => { v with reported := normLabel raw, threadLeft := none }).mountAt g d t := by
  have hserving' : ((l.updDrive d fun v => { v with reported := normLabel raw, threadLeft := none }).drive d).serving
      = some t := (drive_updDrive_field Drive.serving d d l (by intro _; rfl)).trans hserving
  have hr' : (l.updDrive d fun v => { v with reported := normLabel raw, threadLeft := none }).req? t = some r := hr
  unfold loadedReport loadedThreading
  simp only [hstate, updDrive_updDrive, hserving', hr', Option.any_some, hcancel, Bool.false_eq_true, if_false]

/-! ## AWAIT-PICK, and the RETURN of a reel left at a drive -/

theorem mem_updReq (f : Request → Request) {l : Lib} {r : Request} (h : r ∈ l.reqs.live) :
    f r ∈ (l.updReq r.tag f).reqs.live :=
  List.mem_map.2 ⟨r, h, if_pos rfl⟩

theorem mem_setReqState (g : Settings) (st : ReqState) {l : Lib} {r : Request} (h : r ∈ l.reqs.live) :
    { r with state := st, stallLeft := if st.inList then some g.timers.stall else none
             qseq := if st.keepsQueue then r.qseq else none } ∈ (l.setReqState g r.tag st).reqs.live := by
  obtain ⟨q, hq⟩ : ∃ q, l.req? r.tag = some q :=
    Option.isSome_iff_exists.1 (List.find?_isSome.2 ⟨r, h, by simp⟩)
  rw [setReqState_live g r.tag st l q hq]
  exact mem_updReq _ h

/-- A live request enters RETURN-READY as the request it was, with its source (R76). -/
theorem mem_enterReturnReady (g : Settings) (p : Place) {l : Lib} {r : Request} (h : r ∈ l.reqs.live) :
    { r with source := some p, qseq := some (satAdd max32 l.reqs.queueSeq 1), state := .returnReady
             stallLeft := some g.timers.stall } ∈ (l.enterReturnReady g r.tag p).reqs.live := by
  have hsource := mem_updReq (fun q => { q with source := some p }) h
  have hqueue := mem_updReq (l := { l.updReq r.tag fun q => { q with source := some p } with
    reqs := { (l.updReq r.tag fun q => { q with source := some p }).reqs with
      queueSeq := satAdd max32 l.reqs.queueSeq 1 } })
    (fun q => { q with qseq := some (satAdd max32 l.reqs.queueSeq 1) }) hsource
  exact mem_setReqState g .returnReady hqueue

theorem createInternal_live (g : Settings) (kind : Kind) (cargo : Cargo) (priority : Nat) (fill : Request → Request)
    (l : Lib) : (l.createInternal g kind cargo priority fill).2.reqs.live = l.reqs.live
      ++ [fill (freshRequest g l.newTag .internal kind cargo priority (satAdd max32 l.reqs.arrivals 1))] := by
  cases cargo <;> simp [createInternal, rotate, admitReq, takeHold]

theorem createInternal_drives (g : Settings) (kind : Kind) (cargo : Cargo) (priority : Nat) (fill : Request → Request)
    (l : Lib) : (l.createInternal g kind cargo priority fill).2.drives = l.drives := by
  cases cargo <;> simp [createInternal, rotate, admitReq, takeHold]

@[simp] theorem enterReturnReady_drives (g : Settings) (t : Nat) (p : Place) (l : Lib) :
    (l.enterReturnReady g t p).drives = l.drives := by
  simp [enterReturnReady, takeQueue]

theorem createReturn_drives (g : Settings) (cargo : Cargo) (p : Place) (l : Lib) :
    (l.createReturn g cargo p).2.drives = l.drives := by
  unfold createReturn; dsimp only; rw [enterReturnReady_drives, createInternal_drives]

/-- A new RETURN is in the table, in RETURN-READY with its cargo and its source (R87). -/
theorem createReturn_mem (g : Settings) (cargo : Cargo) (p : Place) (l : Lib) :
    ∃ r ∈ (l.createReturn g cargo p).2.reqs.live, r.tag = (l.createReturn g cargo p).1 ∧ r.kind = .ret
      ∧ r.origin = .internal ∧ r.state = .returnReady ∧ r.cargo = cargo ∧ r.source = some p := by
  have hmem : freshRequest g l.newTag .internal .ret cargo 0 (satAdd max32 l.reqs.arrivals 1)
      ∈ (l.createInternal g .ret cargo 0 id).2.reqs.live := by
    rw [createInternal_live]; exact List.mem_append_right _ (List.mem_singleton_self _)
  exact ⟨_, mem_enterReturnReady g p hmem, rfl, rfl, rfl, rfl, rfl, rfl⟩

/-- The RETURN of a reel left at a drive changes the drive's serving field alone among the drives (R65). -/
theorem returnFromDrive_drives (g : Settings) (d : Nat) (l : Lib) :
    ∃ o : Option Nat → Option Nat,
      (l.returnFromDrive g d).drives = l.drives.modify d fun v => { v with serving := o v.serving } := by
  have same : l.drives = l.drives.modify d fun v => { v with serving := id v.serving } := (List.modify_id d _).symm
  unfold returnFromDrive
  dsimp only
  split
  · split
    · exact ⟨fun _ => some _, by rw [updDrive_drives, createReturn_drives]⟩
    · exact ⟨fun _ => some _, by rw [updDrive_drives, createReturn_drives]⟩
    · exact ⟨id, same⟩
  · exact ⟨id, same⟩

/-- An entry to AWAIT-PICK changes the one drive: its state, its limits and perhaps its request (R56). -/
theorem enterAwaitPick_drives (g : Settings) (d : Nat) (l : Lib) :
    ∃ o : Option Nat → Option Nat, (l.enterAwaitPick g d).drives = l.drives.modify d fun v =>
      { v with state := .awaitPick, threadLeft := none, unloadLeft := none, serving := o v.serving } := by
  have same : ∀ m : Lib, m.drives = (l.updDrive d fun v =>
      { v with state := .awaitPick, threadLeft := none, unloadLeft := none }).drives →
      ∃ o : Option Nat → Option Nat, m.drives = l.drives.modify d fun v =>
        { v with state := .awaitPick, threadLeft := none, unloadLeft := none, serving := o v.serving } :=
    fun m hm => ⟨id, hm⟩
  unfold enterAwaitPick
  dsimp only
  split
  · split
    · exact same _ (by simp)
    · split
      · exact same _ rfl
      · exact same _ (by simp)
  · split
    · obtain ⟨o, ho⟩ := returnFromDrive_drives g d (l.updDrive d fun v =>
        { v with state := .awaitPick, threadLeft := none, unloadLeft := none })
      exact ⟨o, by rw [ho, updDrive_drives, List.modify_modify_eq]; rfl⟩
    · exact same _ rfl

/-- A reel left at a drive with no entry free stays there (R65). -/
theorem returnFromDrive_full (g : Settings) (d : Nat) {l : Lib} (h : l.entryFree = false) :
    l.returnFromDrive g d = l := by
  unfold returnFromDrive; rw [h]; rfl

/-- The RETURN of an unrecorded reel: the drive serves it (R65, R87). -/
theorem returnFromDrive_unrecorded (g : Settings) {d : Nat} {l : Lib} (hd : d < l.drives.length)
    (hfree : l.entryFree = true) (hreel : (l.drive d).reel = .unrecorded) :
    ∃ r ∈ (l.returnFromDrive g d).reqs.live, r.kind = .ret ∧ r.origin = .internal ∧ r.state = .returnReady
      ∧ r.cargo = .unknown (l.drive d).reported ∧ r.source = some (.drive d)
      ∧ ((l.returnFromDrive g d).drive d).serving = some r.tag := by
  obtain ⟨r, hmem, htag, hkind, horigin, hstate, hcargo, hsource⟩ :=
    createReturn_mem g (.unknown (l.drive d).reported) (.drive d) l
  unfold returnFromDrive
  simp only [hfree, if_true, hreel]
  refine ⟨r, hmem, hkind, horigin, hstate, hcargo, hsource, ?_⟩
  rw [drive_updDrive_self _ _ _ (by rw [createReturn_drives]; exact hd), htag]

/-- An entry to AWAIT-PICK leaves the drive there with its limits stopped, and the other drives as they were (R56). -/
theorem enterAwaitPick_drive (g : Settings) {d : Nat} {l : Lib} (hd : d < l.drives.length) :
    (∃ t, (l.enterAwaitPick g d).drive d = { l.drive d with
        state := .awaitPick, threadLeft := none, unloadLeft := none, serving := t })
      ∧ ∀ e, e ≠ d → (l.enterAwaitPick g d).drive e = l.drive e := by
  obtain ⟨o, ho⟩ := enterAwaitPick_drives g d l
  obtain ⟨hself, hothers⟩ := drive_of_modify ho hd
  exact ⟨⟨_, hself⟩, hothers⟩

end Lib

/-! ## UNLOADED -/

theorem exec_unloaded {d errors : Nat} {s : State} (hl : s.live) (hd : d < 16) (herrors : errors ≤ 255) :
    exec (.unloaded d errors) s = .next (s.settled (s.found.unloadedReport s.set d errors)) := by
  rw [exec_driveEvent hl hd rfl, if_pos herrors]

namespace Lib

theorem unloadedReport_of_rewinding (g : Settings) {d : Nat} (errors : Nat) {l : Lib}
    (hstate : (l.drive d).state = .rewinding) :
    l.unloadedReport g d errors = (l.addErrors d errors).enterAwaitPick g d := by
  unfold unloadedReport
  simp only [addErrors_drive, hstate]

@[simp] theorem addErrors_drives (d errors : Nat) (l : Lib) : (l.addErrors d errors).drives = l.drives := by
  rw [addErrors_only]

@[simp] theorem addErrors_notes (d errors : Nat) (l : Lib) : (l.addErrors d errors).notes = l.notes := by
  rw [addErrors_only]

/-- A drive with an error figure added, asked what it holds (R56). -/
theorem askHolding_addErrors (d errors : Nat) (l : Lib) :
    (l.addErrors d errors).askHolding d = { l with
      cat := { l.cat with vols := ((l.addErrors d errors).askHolding d).cat.vols }
      drives := l.drives.modify d fun v => { v with queried := true }
      out := l.out ++ [.holdingQuery d] } := by
  rw [addErrors_only]; rfl

end Lib

/-- Settles O34: the drive and its request mounted; and UNLOADED by the drive's state, its figure added first. -/
theorem loadedAndUnloadedReports : Obligations.LoadedAndUnloadedReports := by
  unfold Obligations.LoadedAndUnloadedReports
  refine ⟨fun d tag label r x s hl hshape hd hthreading hserving hdefn hr hcancel => ?_, ?_⟩
  · have hlen : d < s.found.drives.length := by rw [drives_length_of_shape (found_shape hshape)]; exact hd
    have hexec := exec_driveEvent (c := .loadedReady d label) hl hd rfl
    rw [Lib.loadedReport_of_threading s.set label hthreading hserving hr hcancel] at hexec
    have hdrives := Lib.mountAt_drives s.set d tag
      (s.found.updDrive d fun v => { v with reported := normLabel label, threadLeft := none })
    rw [Lib.updDrive_drives, List.modify_modify_eq] at hdrives
    obtain ⟨hself, hothers⟩ := Lib.drive_of_modify hdrives hlen
    refine ⟨_, hexec, by rw [hself]; rfl, by rw [hself]; rfl, by rw [hself]; rfl, ?_,
      ⟨_, (Lib.req?_mountAt_self s.set d tag _).trans (congrArg (Option.map _) hr), rfl, rfl, rfl⟩, hothers⟩
    rw [hself]
    exact congrArg (Option.map _) hdefn
  · intro d errors s hl hshape hd herrors noVolume
    have hlen : d < s.found.drives.length := by rw [drives_length_of_shape (found_shape hshape)]; exact hd
    have hexec := exec_unloaded hl hd herrors
    have hnone (h : noVolume) : s.found.addErrors d errors = s.found :=
      Lib.addErrors_none d errors _ (Lib.reelVolume?_none d _ h)
    have hfigure := fun serial v (hv : s.found.vol? serial = some v) hreel =>
      Lib.addErrors_vol? d errors s.found serial v (Lib.reelVolume?_some d _ serial v hv hreel) hv
    have hquiet := (Lib.addErrors_notes d errors s.found).trans (found_notes s)
    refine ⟨fun hrewinding => ?_, fun hasks => ?_, fun hdiscards => ?_⟩
    · rw [Lib.unloadedReport_of_rewinding s.set errors hrewinding] at hexec
      obtain ⟨⟨t, hself⟩, -⟩ := Lib.enterAwaitPick_drive s.set (l := s.found.addErrors d errors) (by simpa using hlen)
      exact ⟨_, hexec, Lib.addErrors_drives .., fun h => by rw [hnone h], hfigure, by rw [hself]⟩
    · rw [Lib.unloadedReport_asks s.set d errors _ hasks] at hexec
      rw [settled_quiet s (l := (s.found.addErrors d errors).askHolding d) hquiet] at hexec
      refine ⟨fun h => ?_, fun serial v hv hreel => ⟨_, hexec, Lib.askHolding_addErrors .., hfigure serial v hv hreel⟩⟩
      rw [hexec, hnone h]; rfl
    · rw [Lib.unloadedReport_discarded s.set d errors _ hdiscards] at hexec
      rw [settled_quiet s hquiet] at hexec
      refine ⟨fun h => ?_, fun serial v hv hreel => ⟨_, hexec, Lib.addErrors_only .., hfigure serial v hv hreel⟩⟩
      rw [hexec, hnone h]

/-! ## HOLDING -/

/-- The drive after a HOLDING reply that was asked for (R60, R180). -/
def Drive.answered (reply : HoldingReply) (v : Drive) : Drive :=
  { v with queried := false, queryLeft := none, late := false, reported := Lib.holdingLabel reply
           detached := !v.late && v.detached }

theorem Drive.answered_eq {reply : HoldingReply} {v : Drive} (hquery : v.queryLeft = none) (hlate : v.late = false) :
    v.answered reply = { v with queried := false, reported := Lib.holdingLabel reply } := by
  unfold Drive.answered
  rw [hlate, ← hquery, Bool.not_false, Bool.true_and]

@[simp] theorem Drive.rewound_reel (g : Settings) (v : Drive) : (v.rewound g).reel = v.reel := by
  unfold Drive.rewound; rw [Drive.closed_eq]
@[simp] theorem Drive.rewound_reported (g : Settings) (v : Drive) : (v.rewound g).reported = v.reported := by
  unfold Drive.rewound; rw [Drive.closed_eq]

namespace Lib

theorem isAutomated_of_defn {l m : Lib} {d : Nat} (h : (m.drive d).defn = (l.drive d).defn) :
    m.isAutomated d = l.isAutomated d := by
  unfold isAutomated driveCol; rw [h]

@[simp] theorem driveFreed_drives (d : Nat) (l : Lib) : (l.driveFreed d).drives = l.drives := by
  unfold driveFreed; split <;> rfl

theorem becomeIdle_drives (g : Settings) (d : Nat) (l : Lib) : (l.becomeIdle g d).drives = l.drives.modify d fun v =>
    { v with state := .idle, serving := none, reel := .none, idleSince := some g.clock } := by
  unfold becomeIdle; simp

/-- A reply that was asked for, outside the reconcile phase (R60). -/
theorem holdingReport_of_queried (g : Settings) {d : Nat} (reply : HoldingReply) {l : Lib}
    (hqueried : (l.drive d).queried = true) (hquery : (l.drive d).queryLeft = none) :
    l.holdingReport g d reply = (l.updDrive d (Drive.answered reply)).holdingTaken g d reply := by
  unfold holdingReport
  simp only [hqueried, hquery, Bool.true_or, if_true, Option.isSome_none, Bool.false_eq_true, if_false]
  rfl

theorem holdingReport_unasked (g : Settings) {d : Nat} (reply : HoldingReply) {l : Lib}
    (hqueried : (l.drive d).queried = false) (hlate : (l.drive d).late = false) : l.holdingReport g d reply = l := by
  unfold holdingReport
  simp [hqueried, hlate]

/-- An OFFLINE drive that holds nothing becomes IDLE, offline-pending or not (R60). -/
theorem holdingTaken_nothing (g : Settings) {d : Nat} {l : Lib} (hstate : (l.drive d).state = .offline) :
    l.holdingTaken g d .nothing = l.becomeIdle g d := by
  unfold holdingTaken; simp only [hstate]

theorem holdingTaken_reel (g : Settings) {d : Nat} (raw : Option Serial) (loaded : Bool) {l : Lib}
    (hstate : (l.drive d).state = .offline) : l.holdingTaken g d (.reel raw loaded) = l.strayFound g d loaded := by
  unfold holdingTaken; simp only [hstate]

/-- A reel that was not expected is unloaded (R60). -/
theorem strayFound_loaded (g : Settings) {d : Nat} {l : Lib} (hd : d < l.drives.length) :
    let m := l.strayFound g d true
    m.drive d = { l.drive d with reel := .unrecorded, serving := none }.rewound g ∧ Msg.unload d ∈ m.out
      ∧ ∀ e, e ≠ d → m.drive e = l.drive e := by
  have hunload : l.strayFound g d true
      = (l.send (.unload d)).updDrive d fun v => { v with reel := .unrecorded, serving := none }.rewound g := by
    unfold strayFound
    rw [if_pos rfl, orderUnload_eq]
    exact updDrive_updDrive d _ _ (l.send (.unload d))
  dsimp only
  rw [hunload]
  exact ⟨drive_updDrive_self d _ (l.send (.unload d)) hd, List.mem_append_right _ (List.mem_singleton_self _),
    fun e he => drive_updDrive_other d e _ (l.send (.unload d)) he⟩

/-- A reel that waits at the drive with no request: it is returned where it can be (R60, R87). -/
theorem enterAwaitPick_unserved (g : Settings) {d : Nat} {l : Lib} (hserving : (l.drive d).serving = none) :
    l.enterAwaitPick g d =
      let m := l.updDrive d fun v => { v with state := .awaitPick, threadLeft := none, unloadLeft := none }
      if l.isAutomated d then m.returnFromDrive g d else m := by
  have hunserved : ((l.updDrive d fun v =>
      { v with state := .awaitPick, threadLeft := none, unloadLeft := none }).drive d).serving = none :=
    (drive_updDrive_field Drive.serving d d l (by intro _; rfl)).trans hserving
  have hkind : (l.updDrive d fun v =>
      { v with state := .awaitPick, threadLeft := none, unloadLeft := none }).isAutomated d = l.isAutomated d :=
    isAutomated_of_defn (drive_updDrive_field Drive.defn d d l (by intro _; rfl))
  unfold enterAwaitPick
  simp only [hunserved, hkind]

/-- A reel that was not expected waits to be picked, with a RETURN where the drive is AUTOMATED and an entry is
free (R60, R65, R87). -/
theorem strayFound_unloaded (g : Settings) {d : Nat} {l : Lib} (hd : d < l.drives.length) :
    let m := l.strayFound g d false
    (m.drive d).state = .awaitPick ∧ (m.drive d).reel = .unrecorded ∧ (m.drive d).reported = (l.drive d).reported
    ∧ (l.isAutomated d = true → l.entryFree = true →
        ∃ r ∈ m.reqs.live, r.kind = .ret ∧ r.origin = .internal ∧ r.state = .returnReady
          ∧ r.cargo = .unknown (l.drive d).reported ∧ r.source = some (.drive d) ∧ (m.drive d).serving = some r.tag)
    ∧ (l.isAutomated d = false ∨ l.entryFree = false → (m.drive d).serving = none)
    ∧ ∀ e, e ≠ d → m.drive e = l.drive e := by
  have hstray : l.strayFound g d false
      = (l.updDrive d fun v => { v with reel := .unrecorded, serving := none }).enterAwaitPick g d := rfl
  have hmoved := drive_updDrive_self d (fun v => { v with reel := .unrecorded, serving := none }) l hd
  obtain ⟨⟨t, hself⟩, hothers⟩ := enterAwaitPick_drive g
    (l := l.updDrive d fun v => { v with reel := .unrecorded, serving := none }) (d := d) (by simpa using hd)
  have hkind : (l.updDrive d fun v => { v with reel := .unrecorded, serving := none }).isAutomated d
      = l.isAutomated d := isAutomated_of_defn (by rw [hmoved])
  have hawait := enterAwaitPick_unserved g
    (l := l.updDrive d fun v => { v with reel := .unrecorded, serving := none }) (d := d) (by rw [hmoved])
  simp only [hkind, updDrive_updDrive] at hawait
  have hwaits := drive_updDrive_self d (fun v => { v with
    reel := .unrecorded, serving := none, state := .awaitPick, threadLeft := none, unloadLeft := none }) l hd
  dsimp only
  rw [hstray]
  refine ⟨by rw [hself], by rw [hself, hmoved], by rw [hself, hmoved], fun hauto hfree => ?_, fun hnone => ?_,
    fun e he => (hothers e he).trans (drive_updDrive_other d e _ l he)⟩
  · rw [hawait, if_pos hauto]
    have hreturn := returnFromDrive_unrecorded g (l := l.updDrive d fun v => { v with
      reel := .unrecorded, serving := none, state := .awaitPick, threadLeft := none, unloadLeft := none })
      (d := d) (by simpa using hd) hfree (by rw [hwaits])
    rwa [hwaits] at hreturn
  · have hstays : (l.updDrive d fun v => { v with reel := .unrecorded, serving := none }).enterAwaitPick g d
        = l.updDrive d fun v => { v with
            reel := .unrecorded, serving := none, state := .awaitPick, threadLeft := none, unloadLeft := none } := by
      rw [hawait]
      split
      · next hauto =>
        refine returnFromDrive_full g d ?_
        rcases hnone with h | h
        · rw [hauto] at h; cases h
        · exact h
      · rfl
    rw [hstays, hwaits]

/-! ## The end of a reconcile query -/

theorem loseAtDrive_of_none (g : Settings) {d : Nat} {l : Lib} (h : ∀ v ∈ l.cat.vols, v.state ≠ .onDrive d) :
    l.loseAtDrive g d = l := by
  have hnone : l.volOnDrive? d = none := by simpa [volOnDrive?] using h
  unfold loseAtDrive; rw [hnone]

end Lib

/-- Settles O39: a reply asked for is taken by the table of R60, and an expiry detaches the drive. -/
theorem holdingQueryEnds : Obligations.HoldingQueryEnds := by
  unfold Obligations.HoldingQueryEnds
  refine ⟨fun d s hl hshape hd => ?_, fun d s hl hshape hd => ?_⟩
  · have hlen : d < s.found.drives.length := by rw [drives_length_of_shape (found_shape hshape)]; exact hd
    refine ⟨fun hqueried hquery hlate hoffline => ?_, fun reply hqueried hlate => ?_⟩
    · have htaken (reply : HoldingReply) : exec (.holding d reply) s
          = .next (s.settled ((s.found.updDrive d (Drive.answered reply)).holdingTaken s.set d reply)) := by
        rw [exec_driveEvent hl hd rfl, Lib.holdingReport_of_queried s.set reply hqueried hquery]
      have hstate (reply : HoldingReply) : ((s.found.updDrive d (Drive.answered reply)).drive d).state = .offline :=
        (Lib.drive_updDrive_field Drive.state d d s.found (by intro _; rfl)).trans hoffline
      have hanswered (reply : HoldingReply) : (s.found.updDrive d (Drive.answered reply)).drive d
          = { s.found.drive d with queried := false, reported := Lib.holdingLabel reply } := by
        rw [Lib.drive_updDrive_self _ _ _ hlen, Drive.answered_eq hquery hlate]
      have hothers (reply : HoldingReply) (e : Nat) (he : e ≠ d) :=
        Lib.drive_updDrive_other d e (Drive.answered reply) s.found he
      have hlen' (reply : HoldingReply) : d < (s.found.updDrive d (Drive.answered reply)).drives.length := by
        simpa using hlen
      refine ⟨⟨_, htaken .nothing, ?_⟩, fun raw => ⟨_, htaken (.reel raw true), ?_⟩,
        fun raw => ⟨_, htaken (.reel raw false), ?_⟩⟩
      · rw [Lib.holdingTaken_nothing s.set (hstate _)]
        obtain ⟨hself, hstand⟩ := Lib.drive_of_modify (Lib.becomeIdle_drives s.set d _) (hlen' .nothing)
        exact ⟨by rw [hself, hanswered]; rfl, fun e he => (hstand e he).trans (hothers _ e he)⟩
      · rw [Lib.holdingTaken_reel s.set raw true (hstate _)]
        obtain ⟨hself, hsends, hstand⟩ := Lib.strayFound_loaded s.set (hlen' (.reel raw true))
        rw [hanswered] at hself
        exact ⟨by rw [hself]; rfl, by rw [hself]; simp, by rw [hself]; simp [Lib.holdingLabel], hsends,
          fun e he => (hstand e he).trans (hothers _ e he)⟩
      · rw [Lib.holdingTaken_reel s.set raw false (hstate _)]
        obtain ⟨hawait, hreel, hreported, hreturn, hnone, hstand⟩ := Lib.strayFound_unloaded s.set (hlen' (.reel raw false))
        have hkind : (s.found.updDrive d (Drive.answered (.reel raw false))).isAutomated d = s.found.isAutomated d :=
          Lib.isAutomated_of_defn (by rw [hanswered])
        rw [hkind] at hreturn hnone
        rw [hanswered] at hreported hreturn
        exact ⟨hawait, hreel, hreported, hreturn, hnone, fun e he => (hstand e he).trans (hothers _ e he)⟩
    · exact exec_driveEvent_quiet hl hd rfl (Lib.holdingReport_unasked s.set reply hqueried hlate) rfl
  · refine ⟨fun hdue hnone => ?_, fun hdue => ?_⟩
    · refine exec_driveEvent_quiet hl hd rfl ?_ rfl
      unfold Lib.reconcileExpired
      rw [if_pos (by simp [isDue, hdue])]
      exact Lib.loseAtDrive_of_none s.set (l := s.found.updDrive d _) hnone
    · refine exec_driveEvent_quiet hl hd rfl ?_ rfl
      unfold Lib.reconcileExpired
      rw [if_neg (by simp [isDue, hdue])]

end Sys2Proof.Machine
end

section
/-! Define Drive and Confirm Drive (R45, R46). -/

namespace Sys2Proof.Machine

namespace Lib

/-! ## A drive freed -/

/-- A freed drive is noted for the end of the step (R51). -/
theorem driveFreed_only (d : Nat) (l : Lib) : l.driveFreed d = { l with notes := (l.driveFreed d).notes } := by
  unfold driveFreed; split <;> rfl

theorem freedIfEligible_only (g : Settings) (l was : Lib) (d : Nat) :
    l.freedIfEligible g was d = { l with notes := (l.freedIfEligible g was d).notes } := by
  unfold freedIfEligible
  split
  · exact driveFreed_only d l
  · rfl

@[simp] theorem freedIfEligible_drives (g : Settings) (l was : Lib) (d : Nat) :
    (l.freedIfEligible g was d).drives = l.drives := by
  rw [freedIfEligible_only]

end Lib

/-! ## Define Drive -/

/-- The drive as a Define Drive leaves it: the count of mounts cleared, or checked against the new threshold. -/
def Drive.defined (f : DriveBlock) (v : Drive) : Drive :=
  if f.resetCleaning = 1 then
    { v with cleanDue := false, defn := some { driveDefine f v.defn with sinceClean := 0 } }
  else { v with defn := some (driveDefine f v.defn) }.cleaningChecked

theorem Drive.defined_defn (f : DriveBlock) (v : Drive) : (v.defined f).defn = some { driveDefine f v.defn with
    sinceClean := if f.resetCleaning = 1 then 0 else (v.defn.map DriveDef.sinceClean).getD 0 } := by
  unfold Drive.defined; split <;> rfl

theorem Drive.defined_state (f : DriveBlock) (v : Drive) : (v.defined f).state = v.state := by
  unfold Drive.defined; split <;> rfl

namespace Lib

/-- The records with the drive defined, before it is offered (R45). -/
def defineDrive (f : DriveBlock) (g : Settings) (l : Lib) : Lib :=
  let set := l.updDrive f.drive fun v => { v with defn := some (driveDefine f v.defn) }
  if f.resetCleaning = 1 then set.cleaned g f.drive else set.checkCleaning f.drive

theorem defineDrive_drives (f : DriveBlock) (g : Settings) (l : Lib) :
    (l.defineDrive f g).drives = l.drives.modify f.drive (Drive.defined f) := by
  unfold defineDrive Drive.defined
  dsimp only
  split
  · unfold cleaned
    rw [withdrawNotice_drives, updDrive_updDrive]
    rfl
  · rw [checkCleaning_drives, updDrive_updDrive]
    rfl

theorem defineDrive_only (f : DriveBlock) (g : Settings) (l : Lib) : ∃ drives prompts out notes,
    l.defineDrive f g = { l with drives := drives, prompts := prompts, out := out, notes := notes } := by
  unfold defineDrive
  dsimp only
  split
  · exact ⟨_, _, _, _, withdrawNotice_only g .cleaningDue _ _⟩
  · exact ⟨_, _, _, _, checkCleaning_only f.drive _⟩

end Lib

theorem exec_defineDrive {f : DriveBlock} {s : State} (hl : s.live) (hs : s.serving)
    (hfields : driveFieldsOk f s.lib.store.lib.columns = true)
    (hstate : (s.lib.drive f.drive).state = .offline ∨ (s.lib.drive f.drive).state = .idle) :
    let l := (s.lib.begin.defineDrive f s.set).freedIfEligible s.set s.lib.begin f.drive
    exec (.defineDrive f) s = .next (s.after s.set (l.settle s.set) (.good [])) := by
  refine exec_good _ _ s hl rfl _ _ _ ?_
  unfold cmdDefineDrive
  rw [gated_checks_of_forall hs]
  · rfl
  · rcases hstate with h | h <;> simp [hfields, h]

theorem drive_lt_of_driveFieldsOk {f : DriveBlock} {columns : Nat} (h : driveFieldsOk f columns = true) :
    f.drive < 16 := by
  by_contra hge
  simp [driveFieldsOk, Config.drives, hge] at h

/-! ## Confirm Drive -/

theorem exec_confirmDrive {d : Nat} {x : DriveDef} {s : State} (hl : s.live) (hs : s.serving) (hd : d < 16)
    (hdefn : (s.lib.drive d).defn = some x) :
    let confirmed := s.lib.begin.updDrive d fun v => { v with defn := v.defn.map fun x => { x with confirmed := true } }
    exec (.confirmDrive d) s = .next (s.after s.set ((if x.confirmed = true then s.lib.begin
      else confirmed.freedIfEligible s.set s.lib.begin d).settle s.set) (.good [])) := by
  refine exec_good _ _ s hl rfl _ _ _ ?_
  unfold cmdConfirmDrive
  rw [gated_checks_of_forall hs _ _ _ _ (by simp [hd, hdefn, Config.drives]), begin_drive, hdefn, Option.any_some]
  split <;> rfl

/-- Settles O32: the command changes the drive's record; a drive that it makes eligible is noted besides. -/
theorem defineAndConfirmDrive : Obligations.DefineAndConfirmDrive := by
  unfold Obligations.DefineAndConfirmDrive
  refine ⟨fun f s hl hs hshape hfields hstate => ⟨_, exec_defineDrive hl hs hfields hstate, ?_⟩,
    fun d x s hl hs hd hshape hdefn => ⟨_, exec_confirmDrive hl hs hd hdefn, ?_⟩⟩
  · have hlen : f.drive < s.lib.drives.length := by
      rw [drives_length_of_shape hshape]; exact drive_lt_of_driveFieldsOk hfields
    obtain ⟨hself, hothers⟩ := Lib.drive_of_modify (l := s.lib)
      ((Lib.freedIfEligible_drives s.set _ s.lib.begin f.drive).trans (Lib.defineDrive_drives f s.set s.lib.begin)) hlen
    obtain ⟨drives, prompts, out, notes, honly⟩ := Lib.defineDrive_only f s.set s.lib.begin
    refine ⟨by rw [hself, Drive.defined_defn], by rw [hself, Drive.defined_state], hothers, ?_⟩
    rw [Lib.freedIfEligible_only, honly]
    exact ⟨rfl, rfl, rfl, rfl⟩
  · have hlen : d < s.lib.drives.length := by rw [drives_length_of_shape hshape]; exact hd
    split
    · next hconfirmed =>
      refine ⟨rfl, ?_, fun _ _ => rfl⟩
      have hx : { x with confirmed := true } = x := by rw [← hconfirmed]
      rw [hx, ← hdefn]
      rfl
    · obtain ⟨hself, hothers⟩ := Lib.drive_of_modify (l := s.lib)
        (Lib.freedIfEligible_drives s.set (s.lib.begin.updDrive d _) s.lib.begin d) hlen
      refine ⟨?_, by rw [hself, hdefn]; rfl, hothers⟩
      rw [Lib.freedIfEligible_only]
      rfl

end Sys2Proof.Machine
end

section
/-! REEL-REMOVED and CLEAN-NEEDED, and the CLEAN that QUEUE-CLEAN makes (R59, R61, R168). -/

namespace Sys2Proof.Machine

namespace Lib

/-! ## A drive empty and free -/

theorem enterIdle_of_staying (g : Settings) {d : Nat} {l : Lib} (h : (l.drive d).offPending = false) :
    l.enterIdle g d = l.becomeIdle g d := by
  unfold enterIdle; simp [h]

/-- A drive that becomes IDLE is noted for the end of the step (R51). -/
theorem becomeIdle_only (g : Settings) (d : Nat) (l : Lib) :
    l.becomeIdle g d = { l with drives := (l.becomeIdle g d).drives, notes := (l.becomeIdle g d).notes } := by
  unfold becomeIdle
  rw [driveFreed_only]
  rfl

@[simp] theorem becomeIdle_cat (g : Settings) (d : Nat) (l : Lib) : (l.becomeIdle g d).cat = l.cat := by
  rw [becomeIdle_only]

/-! ## REEL-REMOVED -/

/-- The records with a recorded reel on the shelf, before its drive is free (R59). -/
def shelved (g : Settings) (serial : Serial) (l : Lib) : Lib :=
  (l.clearHome g serial (.empty none)).moveVol g serial .shelf

@[simp] theorem shelved_drives (g : Settings) (serial : Serial) (l : Lib) : (l.shelved g serial).drives = l.drives := by
  simp [shelved]

theorem vol?_shelved (g : Settings) {serial : Serial} {l : Lib} {v : Volume} (hv : l.vol? serial = some v) :
    (l.shelved g serial).vol? serial = some { v with homeCell := none, state := .shelf } := by
  unfold shelved moveVol
  rw [vol?_changeVol_self _ _ _ _ (by intro v; rfl), vol?_clearHome_self, hv]
  rfl

/-- A reel taken from a MANUAL drive in AWAIT-PICK that serves no request (R59). -/
theorem reelRemovedReport_unserved (g : Settings) {d : Nat} {serial : Serial} {l : Lib}
    (hmanual : l.isAutomated d = false) (hstate : (l.drive d).state = .awaitPick)
    (hreel : (l.drive d).reel = .recorded serial) (hserving : (l.drive d).serving = none)
    (hstays : (l.drive d).offPending = false) :
    l.reelRemovedReport g d = (l.shelved g serial).becomeIdle g d := by
  rw [← enterIdle_of_staying g ((congrArg Drive.offPending (drive_of_drives (shelved_drives g serial l) d)).trans hstays)]
  unfold reelRemovedReport
  simp only [hmanual, Bool.false_eq_true, if_false, hstate, hreel]
  unfold removedRecorded
  simp only [hserving]
  rfl

theorem reelRemovedReport_of_automated (g : Settings) {d : Nat} {l : Lib} (h : l.isAutomated d = true) :
    l.reelRemovedReport g d = l := by
  unfold reelRemovedReport; simp [h]

/-! ## CLEAN-NEEDED -/

theorem cleanNeededReport_of_cleaning {d : Nat} {l : Lib} (h : (l.drive d).state = .cleaning) :
    l.cleanNeededReport d = l := by
  unfold cleanNeededReport; simp [h]

theorem cleanNeededReport_raises {d : Nat} {l : Lib} (h : (l.drive d).state ≠ .cleaning) :
    l.cleanNeededReport d = { l with
      drives := l.drives.modify d fun v => { v with cleanDue := true }
      notes := { l.notes with raised := l.notes.raised
        ++ [{ source := .cleaningRequested, drive := some d, columns := none, tag := none }] } } := by
  unfold cleanNeededReport; rw [if_neg h]; rfl

/-! ## QUEUE-CLEAN -/

theorem chooseCleaner_holder {l : Lib} {v : Volume} (h : l.chooseCleaner = some v) : v.holder = none := by
  have hfound := List.find?_some h
  simp only [Bool.and_eq_true, Option.isNone_iff_eq_none] at hfound
  obtain ⟨⟨-, hfree⟩, -⟩ := hfound
  exact hfree

theorem queueClean_of_cleaner (g : Settings) {d : Nat} {l : Lib} {v : Volume} (hauto : l.isAutomated d = true)
    (hnames : l.cleanNames d = false) (hfree : l.entryFree = true) (hcleaner : l.chooseCleaner = some v) :
    l.queueClean g d = (l.createInternal g .clean (.volume v.serial) 1 fun r =>
      { r with drive := some d, source := homeSource v }).2.enterQueued g l.newTag := by
  unfold queueClean
  simp only [hauto, hnames, hfree, hcleaner, Bool.not_false, Bool.and_self, if_true]
  rfl

theorem queueClean_none (g : Settings) {d : Nat} {l : Lib} (h : l.isAutomated d = false ∨ l.cleanNames d = true
    ∨ l.entryFree = false ∨ l.chooseCleaner = none) : l.queueClean g d = l := by
  unfold queueClean
  rcases h with h | h | h | h <;> simp [h]

/-- A record that neither belongs on the scratch list nor stands there leaves it alone (R7). -/
theorem scratchAfter_of_off {s : Serial} {l : Lib} {v : Volume} (hv : l.vol? s = some v) (hoff : v.onScratch = false)
    (hscratch : s ∉ l.cat.scratch) : l.scratchAfter s = l.cat.scratch := by
  unfold scratchAfter
  simp only [hv, hoff, Bool.false_eq_true, if_false]
  exact List.filter_eq_self.2 fun x hx => decide_eq_true fun h => hscratch (h ▸ hx)

/-- A change of a volume that leaves the scratch list alone raises nothing (R9). -/
theorem changeVol_notes (g : Settings) {s : Serial} {f : Volume → Volume} {l : Lib}
    (h : (l.updVol s f).scratchAfter s = l.cat.scratch) : (l.changeVol g s f).notes = l.notes := by
  have hsync : ((l.updVol s f).syncScratch g s).notes = l.notes := by
    have hcount : ((l.updVol s f).placeOnScratch s).cat.scratch.length = (l.updVol s f).cat.scratch.length :=
      congrArg List.length h
    unfold syncScratch
    dsimp only
    rw [if_pos hcount]
    rfl
  unfold changeVol
  dsimp only
  split
  · rw [withdrawNotice_notes, hsync]
  · exact hsync

/-- A held volume belongs off the scratch list (R6). -/
theorem takeHold_notes (g : Settings) {s : Serial} (t : Nat) {l : Lib} {v : Volume} (hv : l.vol? s = some v)
    (hscratch : s ∉ l.cat.scratch) : (l.takeHold g s t).notes = l.notes := by
  refine changeVol_notes g (scratchAfter_of_off (v := { v with holder := some (v.holder.getD t) }) ?_ ?_ hscratch)
  · rw [vol?_updVol_self _ _ _ (by intro v; rfl), hv]; rfl
  · simp [Volume.onScratch]

/-- A request's state changes the notes by a run of the dispatcher at most (R95). -/
theorem setReqState_notes (g : Settings) (t : Nat) (st : ReqState) (l : Lib) :
    (l.setReqState g t st).notes = l.notes ∨ (l.setReqState g t st).notes = { l.notes with wake := true } := by
  unfold setReqState
  split
  · exact .inl rfl
  · dsimp only
    split <;> split <;> simp [wake]

@[simp] theorem enterQueued_cat (g : Settings) (t : Nat) (l : Lib) : (l.enterQueued g t).cat = l.cat := by
  simp [enterQueued, takeQueue]

/-- The CLEAN that QUEUE-CLEAN makes of the drive, with the cleaner chosen (R168). -/
theorem queueClean_makes (g : Settings) {d : Nat} {l : Lib} {v : Volume} (hauto : l.isAutomated d = true)
    (hnames : l.cleanNames d = false) (hfree : l.entryFree = true) (hcleaner : l.chooseCleaner = some v)
    (hv : l.vol? v.serial = some v) : let m := l.queueClean g d
    (∃ r ∈ m.reqs.live, r.kind = .clean ∧ r.origin = .internal ∧ r.state = .queued ∧ r.priority = 1
      ∧ r.drive = some d ∧ r.cargo = .volume v.serial ∧ r.source = v.homeCell.map Place.cell
      ∧ (m.vol? v.serial).bind Volume.holder = some r.tag)
    ∧ m.rail = l.rail := by
  dsimp only
  rw [queueClean_of_cleaner g hauto hnames hfree hcleaner]
  obtain ⟨-, -, hlive, hheld⟩ := createInternal_volume g .clean v.serial 1
    (fun r => { r with drive := some d, source := homeSource v }) l v hv (chooseCleaner_holder hcleaner)
  refine ⟨⟨_, enterQueued_mem g _ _ (hlive ▸ List.mem_append_right _ (List.mem_singleton_self _)),
    rfl, rfl, rfl, rfl, rfl, rfl, rfl, ?_⟩, ?_⟩
  · rw [vol?_of_vols (congrArg Catalogue.vols (enterQueued_cat g _ _)), hheld]
    rfl
  · simp [createInternal, rotate, admitReq, takeHold]

/-- With its cleaner off the scratch list the CLEAN leaves nothing to do but a run of the dispatcher. -/
theorem queueClean_notes (g : Settings) {d : Nat} {l : Lib} {v : Volume} (hauto : l.isAutomated d = true)
    (hnames : l.cleanNames d = false) (hfree : l.entryFree = true) (hcleaner : l.chooseCleaner = some v)
    (hv : l.vol? v.serial = some v) (hscratch : v.serial ∉ l.cat.scratch) :
    (l.queueClean g d).notes = l.notes ∨ (l.queueClean g d).notes = { l.notes with wake := true } := by
  rw [queueClean_of_cleaner g hauto hnames hfree hcleaner]
  have hcreated : (l.createInternal g .clean (.volume v.serial) 1 fun r =>
      { r with drive := some d, source := homeSource v }).2.notes = l.notes :=
    takeHold_notes g l.newTag hv hscratch
  rw [← hcreated]
  exact setReqState_notes ..

/-! ## The action of CLEAN-NEEDED -/

theorem act_cleaningRequested (g : Settings) {l : Lib} (d : Nat) (hlink : entryOf g.links 3 = .queueClean)
    (hserving : l.serving = true) :
    act g l { source := .cleaningRequested, drive := some d, columns := none, tag := none } = l.queueClean g d := by
  have hlinked : linkOf g .cleaningRequested = .queueClean := hlink
  simp [act, hlinked, hserving]

end Lib

/-- CLEAN-NEEDED with the source linked to QUEUE-CLEAN, under the interlock: the step ends with what the action
leaves. -/
theorem exec_cleanNeeded_linked {d : Nat} {s : State} (hl : s.live) (hd : d < 16)
    (hstate : (s.found.drive d).state ≠ .cleaning) (hlock : s.found.rail.interlock = true)
    (hserving : s.found.serving = true) (hlink : entryOf s.set.links 3 = .queueClean) {m : Lib}
    (hm : (s.found.updDrive d fun v => { v with cleanDue := true }).queueClean s.set d = m)
    (hrail : m.rail = s.found.rail) (hnotes : m.notes = .none ∨ m.notes = { Notes.none with wake := true }) :
    exec (.cleanNeeded d) s = .next { s with lib := { m with notes := .none } } := by
  have hraises := Lib.cleanNeededReport_raises hstate
  have hquieted : ({ s.found.cleanNeededReport d with notes := .none } : Lib)
      = s.found.updDrive d fun v => { v with cleanDue := true } := by
    rw [hraises, ← found_notes s]; rfl
  have hraised : (s.found.cleanNeededReport d).notes = { Notes.none with
      raised := [{ source := .cleaningRequested, drive := some d, columns := none, tag := none }] } := by
    rw [hraises, found_notes]; rfl
  have hact : Lib.act s.set { s.found.cleanNeededReport d with notes := .none }
      { source := .cleaningRequested, drive := some d, columns := none, tag := none } = m := by
    rw [hquieted, Lib.act_cleaningRequested s.set d hlink (by exact hserving), hm]
  have hsettled : (s.found.cleanNeededReport d).settle s.set = { m with notes := .none } := by
    refine Lib.settle_interlock_raised s.set _ _ (by rw [hraises]; exact hlock) (by rw [hraised]; exact ⟨rfl, rfl, rfl⟩)
      (by rw [hraised]) m hact (by rw [hrail, hlock]) ?_ ?_
    · rcases hnotes with h | h <;> rw [h] <;> exact ⟨rfl, rfl, rfl⟩
    · rcases hnotes with h | h <;> rw [h] <;> rfl
  rw [exec_driveEvent hl hd rfl]
  unfold State.settled
  rw [hsettled]

/-- Settles O37: the reel goes to the shelf and its drive becomes IDLE; the source raised makes the CLEAN. -/
theorem reelRemovedAndCleanNeeded : Obligations.ReelRemovedAndCleanNeeded := by
  unfold Obligations.ReelRemovedAndCleanNeeded
  refine ⟨fun d s hl hshape hd => ⟨fun serial v hmanual hstate hreel hserving hstays hv => ?_, fun hauto => ?_⟩,
    fun d s hl hd => ⟨fun hstate => ?_, fun hcleaning => ?_, fun hstate hlock hserving hlink =>
      ⟨fun v hauto hnames hfree hcleaner hv hscratch => ?_, fun hnone => ?_⟩⟩⟩
  · have hlen : d < s.found.drives.length := by rw [drives_length_of_shape (found_shape hshape)]; exact hd
    have hexec := exec_driveEvent (c := .reelRemoved d) hl hd rfl
    rw [Lib.reelRemovedReport_unserved s.set hmanual hstate hreel hserving hstays] at hexec
    have hdrives := Lib.becomeIdle_drives s.set d (s.found.shelved s.set serial)
    rw [Lib.shelved_drives] at hdrives
    obtain ⟨hself, hothers⟩ := Lib.drive_of_modify hdrives hlen
    have hshelf := (Lib.vol?_of_vols (congrArg Catalogue.vols (Lib.becomeIdle_cat s.set d _)) serial).trans
      (Lib.vol?_shelved s.set hv)
    exact ⟨_, hexec, ⟨_, hshelf, rfl, rfl⟩, hself, hothers⟩
  · exact exec_driveEvent_quiet hl hd rfl (Lib.reelRemovedReport_of_automated s.set hauto) rfl
  · rw [exec_driveEvent hl hd rfl, Lib.cleanNeededReport_raises hstate]
  · exact exec_driveEvent_quiet hl hd rfl (Lib.cleanNeededReport_of_cleaning hcleaning) rfl
  · have hauto' : (s.found.updDrive d fun v => { v with cleanDue := true }).isAutomated d = true :=
      (Lib.isAutomated_of_defn (Lib.drive_updDrive_field Drive.defn d d s.found (by intro _; rfl))).trans hauto
    obtain ⟨hmade, hrail⟩ := Lib.queueClean_makes s.set hauto' hnames hfree hcleaner hv
    have hnotes := Lib.queueClean_notes s.set hauto' hnames hfree hcleaner hv hscratch
    rw [Lib.updDrive_notes, found_notes] at hnotes
    exact ⟨_, exec_cleanNeeded_linked hl hd hstate hlock hserving hlink rfl hrail hnotes, hmade⟩
  · have hauto' : (s.found.updDrive d fun v => { v with cleanDue := true }).isAutomated d = s.found.isAutomated d :=
      Lib.isAutomated_of_defn (Lib.drive_updDrive_field Drive.defn d d s.found (by intro _; rfl))
    rw [← hauto'] at hnone
    rw [exec_cleanNeeded_linked hl hd hstate hlock hserving hlink (Lib.queueClean_none s.set hnone) rfl
      (.inl (found_notes s))]
    rw [← found_notes s]
    rfl

end Sys2Proof.Machine
end

section
/-! Vary Drive and Vary Path, and the offer of a MANUAL drive to the requests that wait for one (R49, R51, R52,
R74). -/

namespace Sys2Proof.Machine

/-! ## The first of a sorted list -/

theorem lexLt_eq_true {a b c d : Nat} : lexLt a b c d = true ↔ a < c ∨ a = c ∧ b < d := by simp [lexLt]

theorem lexLt_asymm {a b c d : Nat} (h : lexLt a b c d = true) : lexLt c d a b = false := by
  rw [lexLt_eq_true] at h
  rw [Bool.eq_false_iff, ne_eq, lexLt_eq_true]
  omega

theorem lexLt_false_trans {a b c d e f : Nat} (h : lexLt c d a b = false) (h' : lexLt e f c d = false) :
    lexLt e f a b = false := by
  rw [Bool.eq_false_iff, ne_eq, lexLt_eq_true] at h h' ⊢
  omega

theorem perm_insertBy {α : Type} (lt : α → α → Bool) (x : α) (xs : List α) : (insertBy lt x xs).Perm (x :: xs) := by
  induction xs with
  | nil => exact .refl _
  | cons y ys ih =>
    unfold insertBy
    split
    · exact (ih.cons y).trans (.swap x y ys)
    · exact .refl _

theorem perm_sortBy {α : Type} (lt : α → α → Bool) (xs : List α) : (sortBy lt xs).Perm xs := by
  induction xs with
  | nil => exact .refl _
  | cons x xs ih => exact (perm_insertBy lt x _).trans (ih.cons x)

section
variable {α : Type} {lt : α → α → Bool} (hasymm : ∀ x y, lt x y = true → lt y x = false)
  (htrans : ∀ x y z, lt y x = false → lt z y = false → lt z x = false)
include hasymm htrans

theorem pairwise_insertBy (x : α) {xs : List α} (h : xs.Pairwise fun a b => lt b a = false) :
    (insertBy lt x xs).Pairwise fun a b => lt b a = false := by
  induction xs with
  | nil => simp [insertBy]
  | cons y ys ih =>
    obtain ⟨hy, hys⟩ := List.pairwise_cons.1 h
    unfold insertBy
    split
    · next hlt =>
      refine List.pairwise_cons.2 ⟨fun z hz => ?_, ih hys⟩
      rcases List.mem_cons.1 ((perm_insertBy lt x ys).mem_iff.1 hz) with rfl | hz
      · exact hasymm y z hlt
      · exact hy z hz
    · next hge =>
      have hyx : lt y x = false := by simpa using hge
      refine List.pairwise_cons.2 ⟨fun z hz => ?_, h⟩
      rcases List.mem_cons.1 hz with rfl | hz
      · exact hyx
      · exact htrans x y z hyx (hy z hz)

theorem pairwise_sortBy (xs : List α) : (sortBy lt xs).Pairwise fun a b => lt b a = false := by
  induction xs with
  | nil => exact .nil
  | cons x xs ih => exact pairwise_insertBy hasymm htrans x ih

/-- The first of a sorted list that passes a test: no other that passes comes before it. -/
theorem find?_sortBy {p : α → Bool} {r : α} {xs : List α} (hr : r ∈ xs) (hp : p r = true) :
    ∃ q ∈ xs, (sortBy lt xs).find? p = some q ∧ p q = true ∧ lt r q = false := by
  obtain ⟨q, hq⟩ : ∃ q, (sortBy lt xs).find? p = some q :=
    Option.isSome_iff_exists.1 (List.find?_isSome.2 ⟨r, (perm_sortBy lt xs).mem_iff.2 hr, hp⟩)
  obtain ⟨hpq, before, after, hsplit, hbefore⟩ := List.find?_eq_some_iff_append.1 hq
  have hsorted := pairwise_sortBy hasymm htrans xs
  rw [hsplit] at hsorted
  obtain ⟨-, hfrom, -⟩ := List.pairwise_append.1 hsorted
  obtain ⟨hfirst, -⟩ := List.pairwise_cons.1 hfrom
  refine ⟨q, (perm_sortBy lt xs).mem_iff.1 (hsplit ▸ by simp), hq, hpq, ?_⟩
  have hmem : r ∈ before ++ q :: after := hsplit ▸ (perm_sortBy lt xs).mem_iff.2 hr
  simp only [List.mem_append, List.mem_cons] at hmem
  rcases hmem with hbef | rfl | hafter
  · have hfails := hbefore r hbef
    rw [hp] at hfails
    cases hfails
  · cases hrr : lt r r
    · rfl
    · exact hrr.symm.trans (hasymm r r hrr)
  · exact hfirst r hafter

end

namespace Lib

/-! ## The offer of a MANUAL drive -/

/-- The request waits for a MANUAL drive (R74). -/
def waitsManual (q : Request) : Prop := q.state = .manual ∧ q.route = some .manualDrive ∧ q.drive = none

/-- The definition has a path of the request, here an enabled one, and its density (R50). -/
def suits (g : Settings) (x : DriveDef) (q : Request) : Prop :=
  (∃ p, q.path = some p ∧ p ∈ x.paths ∧ g.paths.getD p false = true) ∧ ∃ c, q.density = some c ∧ c ∈ x.densities

/-- A MANUAL drive that is ready is eligible for the requests that its definition fits (R50). -/
theorem eligible_manual_iff (g : Settings) {d : Nat} {l : Lib} {x : DriveDef} (q : Request)
    (hdefn : (l.drive d).defn = some x) (hkind : x.kind = .manual) (hready : l.driveReady d = true) :
    l.eligible g q true d = true ↔ suits g x q := by
  unfold eligible suits defFits pathEnabled
  simp only [hdefn, hready, hkind]
  cases q.path <;> cases q.density <;> simp [and_comm, and_assoc]

/-- The first request of the waiting list that the drive is eligible for gets it (R74). -/
theorem offerManual_of_first (g : Settings) {d : Nat} {l : Lib} {r : Request} (hr : r ∈ l.reqs.live)
    (hwaits : waitsManual r) (helig : l.eligible g r true d = true)
    (hfirst : ∀ q ∈ l.reqs.live, waitsManual q → l.eligible g q true d = true → q.tag ≠ r.tag →
      r.priority < q.priority ∨ (r.priority = q.priority ∧ r.qseq.getD 0 < q.qseq.getD 0)) :
    l.offerManual g d = l.giveManual g d r.tag := by
  obtain ⟨hstate, hroute, hdrive⟩ := hwaits
  obtain ⟨q, hq, hfind, hqelig, hafter⟩ := find?_sortBy
    (lt := fun x y : Request => lexLt x.priority (x.qseq.getD 0) y.priority (y.qseq.getD 0))
    (p := fun r => l.eligible g r true d) (fun _ _ => lexLt_asymm) (fun _ _ _ => lexLt_false_trans)
    (xs := l.reqs.live.filter fun r => r.state = .manual && r.route = some .manualDrive && r.drive.isNone)
    (r := r) (by simp [hr, hstate, hroute, hdrive]) helig
  obtain ⟨hqlive, hqwaits⟩ := List.mem_filter.1 hq
  have htag : q.tag = r.tag := by
    by_contra hne
    have hlt := lexLt_eq_true.2 (hfirst q hqlive (by simpa [waitsManual, and_assoc] using hqwaits) hqelig hne)
    rw [hlt] at hafter
    cases hafter
  unfold offerManual manualWaiters
  rw [hfind, ← htag]

/-! ## A drive given to a request -/

theorem promptSlots_length_of_shape {l : Lib} (h : l.shape = specShape) : l.prompts.slots.length = 16 :=
  congrArg Shape.prompts h

theorem freePromptSlot_lt {l : Lib} {k : Nat} (h : l.freePromptSlot = some k) : k < 16 :=
  List.mem_range.1 (List.mem_of_find?_eq_some h)

theorem mem_joinPromptWaits (kind : PromptKind) (t : Nat) (x : PromptSubject) (n : Nat) (l : Lib) :
    ∃ w ∈ (l.joinPromptWaits kind t x n).prompts.waits, w.kind = kind ∧ w.tag = t ∧ w.subject = x := by
  unfold joinPromptWaits
  split
  · next h =>
    obtain ⟨w, hw, htag⟩ := List.any_eq_true.1 h
    have htag' : w.tag = t := by simpa using htag
    exact ⟨_, List.mem_map.2 ⟨w, hw, if_pos htag'⟩, rfl, htag', rfl⟩
  · exact ⟨_, List.mem_append_right _ (List.mem_singleton_self _), rfl, rfl, rfl⟩

/-- The prompt of a request stands in a slot, or waits for one (R126, R140). -/
def promptStands (kind : PromptKind) (t : Nat) (x : PromptSubject) (l : Lib) : Prop :=
  (∃ k p, l.prompts.slots.getD k none = some p ∧ p.kind = kind ∧ p.isRequest = true ∧ p.subject = x)
    ∨ ∃ w ∈ l.prompts.waits, w.kind = kind ∧ w.tag = t ∧ w.subject = x

theorem postRequest_stands (g : Settings) {kind : PromptKind} (t : Nat) (x : PromptSubject) (n : Nat) {l : Lib}
    (hkind : kind ≠ .driveAttention) (hshape : l.shape = specShape) :
    promptStands kind t { x with tag := some t } (l.postRequest g kind t x n) := by
  unfold postRequest
  simp only [hkind, if_false]
  split
  · next k hk =>
    have hlen : k < (l.withdrawWhere g fun p => p.isRequest && p.subject.tag = some t).prompts.slots.length := by
      rw [promptSlots_length_of_shape ((withdrawWhere_shape g _ l).trans hshape)]
      exact freePromptSlot_lt hk
    obtain ⟨⟨a, hslot⟩, -⟩ := postAt_slot g k (requestDraft g kind { x with tag := some t } n)
      (Lib.dropWait t _) hlen
    exact .inl ⟨k, _, hslot, rfl, rfl, rfl⟩
  · exact .inr (mem_joinPromptWaits ..)

/-- A MANUAL drive given to a live request: it is reserved for it, and the MANUAL-MOUNT stands (R74). -/
theorem giveManual_gives (g : Settings) {d : Nat} {l : Lib} {r : Request} (hshape : l.shape = specShape)
    (hd : d < l.drives.length) (hr : l.req? r.tag = some r) :
    let m := l.giveManual g d r.tag
    m.drive d = { l.drive d with state := .reserved .manual, serving := some r.tag }
    ∧ m.req? r.tag = some { r with drive := some d, qseq := none }
    ∧ (∃ x : PromptSubject, x.tag = some r.tag ∧ x.drive = some d ∧ promptStands .manualMount r.tag x m)
    ∧ m.notes = l.notes := by
  have hgiven : (l.updReq r.tag fun q => { q with drive := some d, qseq := none }).req? r.tag
      = some { r with drive := some d, qseq := none } := by
    rw [req?_updReq_self r.tag _ l (by intro q; rfl), hr]; rfl
  unfold giveManual
  refine ⟨?_, ?_, ⟨_, ?_, ?_, postRequest_stands g r.tag _ 0 (by decide) ?_⟩, postRequest_notes ..⟩
  · exact (drive_of_drives (postRequest_drives ..) d).trans (drive_updDrive_self d _ l hd)
  · exact (req?_of_live (postRequest_live ..) r.tag).trans hgiven
  · rfl
  · rfl
  · unfold reserveDrive; simpa using hshape

/-- A step with nothing to do but the offer of one drive, which leaves nothing to do. -/
theorem settle_offer (g : Settings) {d : Nat} {l m : Lib} (hl : l.notes = { Notes.none with offers := [d] })
    (hm : ({ l with notes := .none } : Lib).offerManual g d = m) (hq : m.notes = .none) : l.settle g = m := by
  have hone : l.settleOne g = m := by
    unfold settleOne
    simp only [hl, Notes.none, Bool.false_eq_true, if_false]
    exact hm
  have hquiet : m.quiesce g 63 = m := by unfold quiesce; simp [hq, quiet, Notes.none]
  have hwhole : l.quiesce g 64 = m := by
    unfold quiesce
    rw [if_neg (by simp [hl, quiet]), hone, hquiet]
  unfold settle rounds
  simp only [hwhole, hq, Notes.none, bySource, sortBy]
  exact congrArg (fun n => ({ m with notes := n } : Lib)) hq.symm

/-! ## Vary Drive -/

theorem varyOff_of_idle (g : Settings) {d : Nat} {l : Lib} (hstate : (l.drive d).state = .idle) :
    l.varyOff g d = l.updDrive d fun v => { v with state := .offline } := by
  unfold varyOff; simp only [hstate]

/-- A drive at work keeps its state (R52). -/
theorem varyOff_of_atWork (g : Settings) {d : Nat} {l : Lib} (hstate : (∃ c, (l.drive d).state = .mounted c)
    ∨ (l.drive d).state = .threading ∨ (l.drive d).state = .rewinding ∨ (l.drive d).state = .awaitPick
    ∨ (l.drive d).state = .cleaning) :
    l.varyOff g d = l.updDrive d fun v => { v with offPending := true } := by
  unfold varyOff
  rcases hstate with ⟨c, h⟩ | h | h | h | h <;> simp only [h]

theorem varyOn_of_other (g : Settings) {d : Nat} {l : Lib} (hstate : (l.drive d).state ≠ .offline) :
    l.varyOn g d = l.updDrive d fun v => { v with offPending := false } := by
  unfold varyOn
  dsimp only
  rw [if_neg]
  rwa [drive_updDrive_field Drive.state d d l (by intro _; rfl)]

theorem varyOn_of_offline (g : Settings) {d : Nat} {l : Lib} (hd : d < l.drives.length)
    (hstate : (l.drive d).state = .offline) :
    l.varyOn g d = (l.updDrive d fun v => { v with offPending := false }).becomeIdle g d := by
  unfold varyOn
  dsimp only
  rw [if_pos ((drive_updDrive_field Drive.state d d l (by intro _; rfl)).trans hstate), enterIdle_of_staying]
  rw [drive_updDrive_self d _ l hd]

theorem varyOn_offline_drives (g : Settings) {d : Nat} {l : Lib} (hd : d < l.drives.length)
    (hstate : (l.drive d).state = .offline) : (l.varyOn g d).drives = l.drives.modify d fun v =>
      { v with state := .idle, serving := none, reel := .none, idleSince := some g.clock, offPending := false } := by
  rw [varyOn_of_offline g hd hstate, becomeIdle_drives, updDrive_drives, List.modify_modify_eq]
  rfl

theorem varyOn_offline_only (g : Settings) {d : Nat} {l : Lib} (hd : d < l.drives.length)
    (hstate : (l.drive d).state = .offline) :
    l.varyOn g d = { l with drives := (l.varyOn g d).drives, notes := (l.varyOn g d).notes } := by
  rw [varyOn_of_offline g hd hstate, becomeIdle_only]
  rfl

/-- A MANUAL drive varied on is to be offered (R51). -/
theorem varyOn_manual_notes (g : Settings) {d : Nat} {l : Lib} {x : DriveDef} (hd : d < l.drives.length)
    (hstate : (l.drive d).state = .offline) (hdefn : (l.drive d).defn = some x) (hkind : x.kind = .manual) :
    (l.varyOn g d).notes = { l.notes with offers := l.notes.offers ++ [d] } := by
  rw [varyOn_of_offline g hd hstate]
  unfold becomeIdle driveFreed
  rw [updDrive_updDrive, if_pos]
  · rfl
  · unfold isManual
    rw [drive_updDrive_field Drive.defn d d l (by intro _; rfl), hdefn]
    exact decide_eq_true hkind

end Lib

theorem exec_varyDrive {d action : Nat} {s : State} (hl : s.live) (hs : s.serving) (hd : d < 16) (haction : action ≤ 1)
    (hdefn : (s.lib.drive d).defn.isSome = true)
    (hreach : action = 0 ∨ (s.lib.drive d).state ≠ .offline ∨ (s.lib.drive d).detached = false) :
    exec (.varyDrive d action) s = .next (s.after s.set ((if action = 0 then s.lib.begin.varyOff s.set d
      else s.lib.begin.varyOn s.set d).settle s.set) (.good [])) := by
  refine exec_good _ _ s hl rfl _ _ _ ?_
  unfold cmdVaryDrive
  rw [gated_checks_of_forall hs]
  rcases hreach with h | h | h <;> simp [hd, haction, hdefn, h, Config.drives]

/-- A drive that is detached cannot be varied on (R52). -/
theorem exec_varyDrive_detached {d : Nat} {s : State} (hl : s.live) (hs : s.serving) (hd : d < 16)
    (hdefn : (s.lib.drive d).defn.isSome = true) (hstate : (s.lib.drive d).state = .offline)
    (hdetached : (s.lib.drive d).detached = true) :
    exec (.varyDrive d 1) s = .next (s.after s.set s.lib.begin (.check .driveState (.drive d))) := by
  refine exec_refuse _ _ s hl rfl _ _ ?_
  unfold cmdVaryDrive
  rw [gated_serving .normal .none s.set s.lib.begin _ hs]
  simp [checks, hd, hdefn, hstate, hdetached, Config.drives]

namespace Lib

/-- The offer that follows a Vary Drive on: the first request that waits for the drive gets it (R51, R74). -/
theorem varyOn_settle_manual (g : Settings) {d : Nat} {l : Lib} {x : DriveDef} {r : Request}
    (hshape : l.shape = specShape) (hd : d < l.drives.length) (hnotes : l.notes = .none)
    (hstate : (l.drive d).state = .offline) (hclean : (l.drive d).cleanDue = false)
    (hdefn : (l.drive d).defn = some x) (hkind : x.kind = .manual) (hconfirmed : x.confirmed = true)
    (hr : l.req? r.tag = some r) (hwaits : waitsManual r) (hsuits : suits g x r)
    (hfirst : ∀ q ∈ l.reqs.live, waitsManual q → suits g x q → q.tag ≠ r.tag →
      r.priority < q.priority ∨ (r.priority = q.priority ∧ r.qseq.getD 0 < q.qseq.getD 0)) :
    let m := (l.varyOn g d).settle g
    (m.drive d).state = .reserved .manual ∧ (m.drive d).serving = some r.tag
    ∧ m.req? r.tag = some { r with drive := some d, qseq := none }
    ∧ ∃ x : PromptSubject, x.tag = some r.tag ∧ x.drive = some d ∧ promptStands .manualMount r.tag x m := by
  have hvaried := varyOn_manual_notes g hd hstate hdefn hkind
  rw [hnotes] at hvaried
  obtain ⟨w, hw⟩ : ∃ w : Lib, w = { l.varyOn g d with notes := .none } := ⟨_, rfl⟩
  have hdrives : w.drives = _ := (congrArg Lib.drives hw).trans (varyOn_offline_drives g hd hstate)
  obtain ⟨hself, -⟩ := drive_of_modify hdrives hd
  have hreqs : w.reqs = l.reqs := by rw [hw, varyOn_offline_only g hd hstate]
  have hwdefn : (w.drive d).defn = some x := by rw [hself, ← hdefn]
  have hready : w.driveReady d = true := by
    unfold driveReady
    simp only [hwdefn, hconfirmed]
    rw [hself]
    simp [hclean]
  have helig := fun q => eligible_manual_iff g q hwdefn hkind hready
  have hwr : w.req? r.tag = some r := (req?_of_live (congrArg RequestTable.live hreqs) r.tag).trans hr
  have hoffer : w.offerManual g d = w.giveManual g d r.tag := by
    refine offerManual_of_first g ?_ hwaits ((helig r).2 hsuits) fun q hq hqwaits hqelig hne =>
      hfirst q (hreqs ▸ hq) hqwaits ((helig q).1 hqelig) hne
    rw [hreqs]
    exact List.mem_of_find?_eq_some hr
  obtain ⟨hdrive, hrequest, hprompt, hquiet⟩ := giveManual_gives g (l := w) (d := d)
    (by rw [hw]; exact (varyOn_shape g d l).trans hshape) (by rw [hdrives]; simpa using hd) hwr
  have hsettled : (l.varyOn g d).settle g = w.giveManual g d r.tag :=
    settle_offer g hvaried (by rw [← hw, hoffer]) (hquiet.trans (by rw [hw]))
  dsimp only
  rw [hsettled]
  exact ⟨by rw [hdrive], by rw [hdrive], hrequest, hprompt⟩

end Lib

/-! ## Vary Path -/

namespace Lib

theorem foldl_noteOffer_only (ds : List Nat) (l : Lib) :
    ds.foldl (fun l d => l.noteOffer d) l = { l with notes := (ds.foldl (fun l d => l.noteOffer d) l).notes } := by
  induction ds generalizing l with
  | nil => rfl
  | cons d ds ih => rw [List.foldl_cons, ih]; rfl

/-- An enabled path is noted for the end of the step (R49). -/
theorem pathFreed_only (p : Nat) (l : Lib) : l.pathFreed p = { l with notes := (l.pathFreed p).notes } := by
  unfold pathFreed
  rw [foldl_noteOffer_only]
  rfl

end Lib

theorem exec_varyPath {p action : Nat} {s : State} (hl : s.live) (hs : s.serving) (hp : p < 8) (haction : action ≤ 1) :
    let g : Settings := { s.set with paths := s.set.paths.set p (action = 1) }
    let l := if action = 1 && !Lib.pathEnabled s.set p then s.lib.begin.pathFreed p else s.lib.begin
    exec (.varyPath p action) s = .next (s.after g (l.settle g) (.good [⟨1, pathByte g.paths⟩])) := by
  refine exec_good _ _ s hl rfl _ _ _ ?_
  unfold cmdVaryPath
  rw [gated_checks_of_forall hs _ _ _ _ (by simp [hp, haction])]

/-- Settles O33: the drive's one change by its state, and the offer of a drive or of a path's drives at the step's
end. -/
theorem varyDriveAndPath : Obligations.VaryDriveAndPath := by
  unfold Obligations.VaryDriveAndPath
  refine ⟨?_, fun p action s hl hs hp haction => ⟨_, exec_varyPath hl hs hp haction, ?_, fun hsame => ?_⟩⟩
  · intro d s hl hs hd hshape hdefn put
    have hlen : d < s.lib.begin.drives.length := by
      rw [Lib.begin_drives, drives_length_of_shape hshape]; exact hd
    have hoff := exec_varyDrive (action := 0) hl hs hd (by omega) hdefn (.inl rfl)
    have hon := exec_varyDrive (action := 1) hl hs hd (by omega) hdefn
    rw [if_pos rfl] at hoff
    simp only [one_ne_zero, if_false, false_or] at hon
    have hput (f : Drive → Drive) : (s.lib.begin.updDrive d f).settle s.set = put f := Lib.settle_quiet s.set _ rfl
    refine ⟨fun hidle => ?_, fun hwork => ?_, fun hoffline hattached => ⟨_, hon (.inr hattached), ?_⟩, ?_,
      exec_varyDrive_detached hl hs hd hdefn, fun hstate => ?_⟩
    · rw [hoff, Lib.varyOff_of_idle s.set (l := s.lib.begin) hidle, hput]
    · rw [hoff, Lib.varyOff_of_atWork s.set (l := s.lib.begin) hwork, hput]
    · obtain ⟨hself, hothers⟩ := Lib.drive_of_modify (Lib.varyOn_offline_drives s.set hlen hoffline) hlen
      exact ⟨Lib.varyOn_offline_only s.set hlen hoffline, hself, hothers⟩
    · intro x r hoffline hattached hclean hx hkind hconfirmed waits hr hwaits hfirst
      obtain ⟨hstate, hroute, hnone, hpath, hdensity⟩ := hwaits
      obtain ⟨hreserved, hserving, hrequest, y, htag, hdrive, hprompt⟩ := Lib.varyOn_settle_manual s.set
        (l := s.lib.begin) hshape hlen rfl hoffline hclean hx hkind hconfirmed hr ⟨hstate, hroute, hnone⟩ ⟨hpath, hdensity⟩
        fun q hq ⟨hqstate, hqroute, hqnone⟩ ⟨hqpath, hqdensity⟩ =>
          hfirst q hq ⟨hqstate, hqroute, hqnone, hqpath, hqdensity⟩
      refine ⟨_, _, hon (.inr hattached), hreserved, hserving, hrequest, rfl, hstate, ?_⟩
      rcases hprompt with ⟨k, p, hslot, hpkind, hreq, rfl⟩ | ⟨w, hw, hwkind, hwtag, rfl⟩
      · exact .inl ⟨k, p, hslot, hpkind, hreq, htag, hdrive⟩
      · exact .inr ⟨w, hw, hwkind, hwtag, hdrive⟩
    · rw [hon (.inl hstate), Lib.varyOn_of_other s.set (l := s.lib.begin) hstate, hput]
  · split
    · exact Lib.pathFreed_only p s.lib.begin
    · rfl
  · rw [if_neg]
    rcases hsame with rfl | henabled
    · simp
    · unfold Lib.pathEnabled; rw [henabled]; simp

end Sys2Proof.Machine
end

section
/-! Cancel, Release Request and Dismount (R76, R78, R80), and the queue-stall expiry (R91). -/

namespace Sys2Proof.Machine

/-! ## Changes of a request, one after another -/

namespace Lib

theorem updReq_updReq (t : Nat) (f f' : Request → Request) (l : Lib) (hf : ∀ r, (f r).tag = r.tag) :
    (l.updReq t f).updReq t f' = l.updReq t fun r => f' (f r) := by
  unfold updReq
  dsimp only
  rw [List.map_map]
  congr 2
  refine List.map_congr_left fun r _ => ?_
  by_cases h : r.tag = t <;> simp [h, hf]

theorem tag_of_req? {l : Lib} {t : Nat} {r : Request} (h : l.req? t = some r) : r.tag = t := by
  simpa using List.find?_some h

theorem serial_of_vol? {l : Lib} {s : Serial} {v : Volume} (h : l.vol? s = some v) : v.serial = s := by
  simpa using List.find?_some h

/-! ## The hold of a completed request -/

/-- The hold that a request has on its volume is released (R11). -/
theorem holder_releaseHold (g : Settings) {t : Nat} {s : Serial} {l : Lib} {r : Request} (hr : l.req? t = some r)
    (hcargo : r.cargo = .volume s) (hheld : (l.vol? s).bind Volume.holder = some t) :
    ((l.releaseHold g t).vol? s).bind Volume.holder = none := by
  have hserial : (l.req? t).bind Request.serial? = some s := by simp [hr, Request.serial?, hcargo]
  unfold releaseHold
  simp only [hserial, if_pos hheld]
  rw [vol?_changeVol_self g s _ l (by intro v; rfl)]
  cases l.vol? s <;> rfl

/-- A completed request of the host: its place, its prompts and its drives given up, its code fixed (R89). -/
def ended (g : Settings) (t : Nat) (c : Code) (l : Lib) : Lib :=
  (((((l.leaveDrives t).freePlaceSlot g t).clearMarks t).clearRequestPrompt g t).fixCode t c).setReqState g t .done

theorem ended_cat (g : Settings) (t : Nat) (c : Code) (l : Lib) : (l.ended g t c).cat = l.cat := by
  simp [ended]

theorem complete_of_link (g : Settings) {t : Nat} (c : Code) {l : Lib} {r : Request} (hr : l.req? t = some r)
    (hdone : r.state ≠ .done) (horigin : r.origin = .link) :
    l.complete g t c = ((if r.code.getD c = .operatorRefused then (l.ended g t c).accrue r.account Account.addRefusal
      else l.ended g t c).releaseHold g t).setCause causeRequestDone := by
  unfold complete
  simp only [hr, if_neg hdone, horigin]
  rfl

theorem req?_ended (g : Settings) {t : Nat} (c : Code) {l : Lib} {r : Request} (hr : l.req? t = some r) :
    (l.ended g t c).req? t = some { r with
      code := some (r.code.getD c), state := .done, stallLeft := none, qseq := none } := by
  unfold ended
  rw [req?_setReqState_self, req?_fixCode_self, req?_of_live (l := l) (by simp), hr]
  rfl

/-- The volume of a completed request has no holder (R11, R89). -/
theorem holder_complete (g : Settings) {t : Nat} (c : Code) {s : Serial} {l : Lib} {r : Request}
    (hr : l.req? t = some r) (hdone : r.state ≠ .done) (horigin : r.origin = .link) (hcargo : r.cargo = .volume s)
    (hheld : (l.vol? s).bind Volume.holder = some t) :
    ((l.complete g t c).vol? s).bind Volume.holder = none := by
  rw [complete_of_link g c hr hdone horigin]
  refine holder_releaseHold g (r := { r with
    code := some (r.code.getD c), state := .done, stallLeft := none, qseq := none }) ?_ hcargo ?_
  · rw [← req?_ended g c hr]
    split
    · exact req?_of_live (congrArg RequestTable.live (accrue_reqs _ _ _)) t
    · rfl
  · rw [← hheld]
    refine congrArg (Option.bind · Volume.holder) (vol?_of_vols (congrArg Catalogue.vols ?_) s)
    split <;> simp [ended_cat]

/-! ## What a completion raises -/

/-- The sources raised in `l` are still raised in `m`. -/
def RaisedStill (l m : Lib) : Prop := l.notes.raised <+: m.notes.raised

theorem RaisedStill.of_eq {l m : Lib} (h : m.notes.raised = l.notes.raised) : RaisedStill l m := by
  unfold RaisedStill
  rw [h]

theorem RaisedStill.trans {l m n : Lib} (h : RaisedStill l m) (k : RaisedStill m n) : RaisedStill l n :=
  List.IsPrefix.trans h k

theorem RaisedStill.foldl {α : Type} (f : Lib → α → Lib) (hf : ∀ l a, RaisedStill l (f l a)) (xs : List α) (l : Lib) :
    RaisedStill l (xs.foldl f l) := by
  induction xs generalizing l with
  | nil => exact .of_eq rfl
  | cons x xs ih => exact (hf l x).trans (ih _)

theorem releaseDrive_raised (d : Nat) (l : Lib) : (l.releaseDrive d).notes.raised = l.notes.raised := by
  unfold releaseDrive driveFreed
  split
  · rfl
  · split <;> rfl

theorem leaveDrives_raised (t : Nat) (l : Lib) : RaisedStill l (l.leaveDrives t) := by
  refine RaisedStill.foldl _ (fun l d => .of_eq ?_) _ l
  split
  · exact releaseDrive_raised d l
  · rfl

theorem setCell_raised (n : Nat) (c : Cell) (l : Lib) : (l.setCell n c).notes.raised = l.notes.raised := by
  unfold setCell
  dsimp only
  split <;> rfl

theorem changeSlot_raised (g : Settings) (k : Nat) (x : Slot) (l : Lib) :
    (l.changeSlot g k x).notes.raised = l.notes.raised := by
  unfold changeSlot
  dsimp only
  split
  · rw [withdrawNotice_notes, withdrawNotice_notes]
    split <;> rfl
  · split <;> rfl

theorem freePlaceSlot_raised (g : Settings) (t : Nat) (l : Lib) :
    (l.freePlaceSlot g t).notes.raised = l.notes.raised := by
  unfold freePlaceSlot setSlot
  split
  · rw [updateRemove_notes, changeSlot_raised]
  · rfl

theorem clearMarks_raised (t : Nat) (l : Lib) : RaisedStill l (l.clearMarks t) := by
  refine RaisedStill.foldl _ (fun l n => .of_eq ?_) _ l
  split
  · exact setCell_raised n _ l
  · rfl

theorem judgeLow_raised (g : Settings) (l : Lib) : RaisedStill l (l.judgeLow g) := by
  unfold judgeLow
  split
  · split
    · exact .of_eq rfl
    · exact List.prefix_append _ _
  · exact .of_eq rfl

theorem evalLow_raised (g : Settings) (l : Lib) : RaisedStill l (l.evalLow g) := by
  unfold evalLow
  dsimp only
  split
  · exact judgeLow_raised g l
  · exact (judgeLow_raised g l).trans (.of_eq (by rw [withdrawNotice_notes]))

/-- A change of a volume raises SCRATCH-LOW at most (R9). -/
theorem changeVol_raised (g : Settings) (s : Serial) (f : Volume → Volume) (l : Lib) :
    RaisedStill l (l.changeVol g s f) := by
  have hsync : RaisedStill l ((l.updVol s f).syncScratch g s) := by
    unfold syncScratch
    dsimp only
    split
    · exact .of_eq rfl
    · exact evalLow_raised g ((l.updVol s f).placeOnScratch s)
  unfold changeVol
  dsimp only
  split
  · exact hsync.trans (.of_eq (by rw [withdrawNotice_notes]))
  · exact hsync

theorem releaseHold_raised (g : Settings) (t : Nat) (l : Lib) : RaisedStill l (l.releaseHold g t) := by
  unfold releaseHold
  split
  · split
    · exact changeVol_raised g _ _ l
    · exact .of_eq rfl
  · exact .of_eq rfl

theorem ended_raised (g : Settings) (t : Nat) (c : Code) (l : Lib) : RaisedStill l (l.ended g t c) := by
  refine ((leaveDrives_raised t l).trans (.of_eq (freePlaceSlot_raised g t _))).trans
    ((clearMarks_raised t _).trans (.of_eq ?_))
  unfold ended
  rw [setReqState_raised]
  exact congrArg Notes.raised (clearRequestPrompt_notes g t _)

/-- The completion of a request of the host takes back no source raised. -/
theorem complete_raised (g : Settings) {t : Nat} (c : Code) {l : Lib} {r : Request} (hr : l.req? t = some r)
    (hdone : r.state ≠ .done) (horigin : r.origin = .link) : RaisedStill l (l.complete g t c) := by
  rw [complete_of_link g c hr hdone horigin]
  refine (ended_raised g t c l).trans (RaisedStill.trans ?_ (releaseHold_raised g t _))
  split
  · exact .of_eq (by rw [accrue_notes])
  · exact .of_eq rfl

end Lib

/-! ## Cancel -/

/-- Cancel of a request of the host that is not yet cancelled, by its state (R78). -/
theorem cmdCancel_of_link {tag : Nat} {r : Request} {s : State} (hs : s.serving) (hlo : 1 ≤ tag) (hhi : tag ≤ 32767)
    (hr : s.lib.req? tag = some r) (horigin : r.origin = .link) (hcancel : r.cancelPending = false) :
    cmdCancel tag s.set s.lib.begin = (s.lib.begin.cancel s.set r).elim
      (.refuse s.set s.lib.begin .requestState (.tag tag)) fun l => .good s.set l [] := by
  unfold cmdCancel
  rw [gated_checks_of_forall hs _ _ _ _ (by simp [hr, horigin, hlo, hhi])]
  simp only [begin_req?, hr, hcancel, Bool.false_and, Bool.false_eq_true, if_false]
  cases s.lib.begin.cancel s.set r <;> rfl

theorem exec_cancel_of_some {tag : Nat} {r : Request} {s : State} {l : Lib} (hl : s.live) (hs : s.serving)
    (hlo : 1 ≤ tag) (hhi : tag ≤ 32767) (hr : s.lib.req? tag = some r) (horigin : r.origin = .link)
    (hcancel : r.cancelPending = false) (hcancelled : s.lib.begin.cancel s.set r = some l) :
    exec (.cancel tag) s = .next (s.after s.set (l.settle s.set) (.good [])) :=
  exec_good _ _ s hl rfl _ _ _ (by rw [cmdCancel_of_link hs hlo hhi hr horigin hcancel, hcancelled]; rfl)

theorem exec_cancel_done {tag : Nat} {r : Request} {s : State} (hl : s.live) (hs : s.serving) (hlo : 1 ≤ tag)
    (hhi : tag ≤ 32767) (hr : s.lib.req? tag = some r) (horigin : r.origin = .link) (hcancel : r.cancelPending = false)
    (hdone : r.state = .done) :
    exec (.cancel tag) s = .next (s.after s.set s.lib.begin (.check .requestState (.tag tag))) :=
  exec_refuse _ _ s hl rfl _ _ (by rw [cmdCancel_of_link hs hlo hhi hr horigin hcancel]; simp [Lib.cancel, hdone])

theorem exec_cancel_unknown {tag : Nat} {s : State} (hl : s.live) (hs : s.serving) (hlo : 1 ≤ tag) (hhi : tag ≤ 32767)
    (hr : s.lib.req? tag = none) :
    exec (.cancel tag) s = .next (s.after s.set s.lib.begin (.check .tagUnknown (.tag tag))) := by
  refine exec_refuse _ _ s hl rfl _ _ ?_
  unfold cmdCancel
  rw [gated_checks_of_forall hs _ _ _ _ (by simp [hr, hlo, hhi])]
  simp only [begin_req?, hr]

namespace Lib

/-- A request that waits in HELD or in QUEUED, with no slot to hand over, completes (R78). -/
theorem cancel_of_waiting (g : Settings) {tag : Nat} {l : Lib} {r : Request} (hr : l.req? tag = some r)
    (hstate : r.state = .held ∨ r.state = .queued) (hover : l.handOverOf tag = none) :
    l.cancel g r = some (l.complete g tag .cancelled) := by
  have hcomplete : l.completeCancelled g tag = l.complete g tag .cancelled := by
    unfold completeCancelled
    simp only [hover]
  unfold cancel
  rcases hstate with h | h <;> simp only [h, tag_of_req? hr, hcomplete]

/-- A mount or an audit whose order is current is marked (R78, R79). -/
theorem cancel_of_current (g : Settings) {tag : Nat} {l : Lib} {r : Request} (hr : l.req? tag = some r)
    (hstate : (r.state = .fetching ∧ r.isMount = true) ∨ (r.state = .moving ∧ r.kind = .audit))
    (hstaged : l.stagedFor? tag = none) :
    l.cancel g r = some (l.updReq tag fun q =>
      { q with cancelPending := true, code := some (q.code.getD .cancelled) }) := by
  have hpending : (l.updReq tag fun q => { q with cancelPending := true }).fixCode tag .cancelled
      = l.updReq tag fun q => { q with cancelPending := true, code := some (q.code.getD .cancelled) } :=
    updReq_updReq tag _ _ l (by intro _; rfl)
  unfold cancel
  rcases hstate with ⟨hstate, hkind⟩ | ⟨hstate, hkind⟩ <;>
    simp [hstate, tag_of_req? hr, hstaged, hkind, hpending]

end Lib

/-! ## Release Request and Dismount -/

theorem withTag_of_some {tag : Nat} {r : Request} {s : State} (hs : s.serving) (hlo : 1 ≤ tag) (hhi : tag ≤ 32767)
    (hr : s.lib.req? tag = some r) (k : Request → Applied) : withTag tag s.set s.lib.begin k = k r := by
  unfold withTag
  rw [gated_checks_of_forall hs _ _ _ _ (by simp [hlo, hhi])]
  simp only [begin_req?, hr]

theorem exec_releaseRequest {tag : Nat} {r : Request} {s : State} (hl : s.live) (hs : s.serving) (hlo : 1 ≤ tag)
    (hhi : tag ≤ 32767) (hr : s.lib.req? tag = some r) (hdone : r.state = .done) :
    exec (.releaseRequest tag) s
      = .next (s.after s.set ((s.lib.begin.freeEntry tag).settle s.set) (.good [])) := by
  refine exec_good _ _ s hl rfl _ _ _ ?_
  unfold cmdReleaseRequest
  rw [withTag_of_some hs hlo hhi hr]
  simp [hdone]

theorem exec_releaseRequest_refused {tag : Nat} {r : Request} {s : State} (hl : s.live) (hs : s.serving)
    (hlo : 1 ≤ tag) (hhi : tag ≤ 32767) (hr : s.lib.req? tag = some r) (hdone : r.state ≠ .done) :
    exec (.releaseRequest tag) s = .next (s.after s.set s.lib.begin (.check .requestState (.tag tag))) := by
  refine exec_refuse _ _ s hl rfl _ _ ?_
  unfold cmdReleaseRequest
  rw [withTag_of_some hs hlo hhi hr]
  simp [hdone]

theorem exec_dismount {tag d : Nat} {r : Request} {s : State} (hl : s.live) (hs : s.serving) (hlo : 1 ≤ tag)
    (hhi : tag ≤ 32767) (hr : s.lib.req? tag = some r) (hmount : r.isMount = true) (hmounted : r.state = .mounted)
    (hdrive : r.drive = some d) :
    exec (.dismount tag) s = .next (s.after s.set
      (((s.lib.begin.reqRewinding s.set tag).orderUnload s.set d).settle s.set) (.good [])) := by
  refine exec_good _ _ s hl rfl _ _ _ ?_
  unfold cmdDismount
  rw [withTag_of_some hs hlo hhi hr]
  simp [hmount, hmounted, hdrive]

theorem exec_dismount_refused {tag : Nat} {r : Request} {s : State} (hl : s.live) (hs : s.serving) (hlo : 1 ≤ tag)
    (hhi : tag ≤ 32767) (hr : s.lib.req? tag = some r) (hmounted : r.state ≠ .mounted) :
    exec (.dismount tag) s = .next (s.after s.set s.lib.begin (.check .requestState (.tag tag))) := by
  refine exec_refuse _ _ s hl rfl _ _ ?_
  unfold cmdDismount
  rw [withTag_of_some hs hlo hhi hr]
  simp [hmounted]

namespace Lib

theorem req?_freeEntry_self (t : Nat) (l : Lib) : (l.freeEntry t).req? t = none := by
  simp [freeEntry, req?]

theorem req?_freeEntry_other {t x : Nat} (hx : x ≠ t) (l : Lib) : (l.freeEntry t).req? x = l.req? x := by
  unfold freeEntry req?
  dsimp only [noteEntryFreed]
  rw [List.find?_filter]
  congr 1
  funext r
  by_cases h : r.tag = x <;> simp [h, hx]

/-- A request that stands in no list leaves or enters none: its state changes nothing of the prompts (R128). -/
theorem setReqState_out (g : Settings) {t : Nat} (st : ReqState) {l : Lib} {r : Request} (hr : l.req? t = some r)
    (hlist : r.state.inList = false) : (l.setReqState g t st).out = l.out := by
  unfold setReqState
  simp only [hr, hlist, Bool.false_and, Bool.false_eq_true, if_false]
  split <;> rfl

theorem reqUnmounted_out (g : Settings) (t : Nat) (l : Lib) : (l.reqUnmounted g t).out = l.out := by
  unfold reqUnmounted
  split
  · rfl
  · split <;> simp

theorem reqUnmounted_cat (g : Settings) (t : Nat) (l : Lib) : (l.reqUnmounted g t).cat = l.cat := by
  unfold reqUnmounted
  split
  · rfl
  · split <;> simp

theorem reqRewinding_out (g : Settings) {t : Nat} {l : Lib} {r : Request} (hr : l.req? t = some r)
    (hlist : r.state.inList = false) : (l.reqRewinding g t).out = l.out := by
  unfold reqRewinding
  rw [setReqState_out g .rewinding (r := { r with accruedFrom := none }) (by rw [req?_reqUnmounted_self, hr]; rfl)
    hlist, reqUnmounted_out]

theorem reqRewinding_cat (g : Settings) (t : Nat) (l : Lib) : (l.reqRewinding g t).cat = l.cat := by
  unfold reqRewinding
  rw [setReqState_cat, reqUnmounted_cat]

end Lib

/-- Settles O54: what Cancel does by the state of the request, the entry that Release Request frees, and the request
and the drive that Dismount puts into REWINDING. -/
theorem cancelReleaseDismount : Obligations.CancelReleaseDismount := by
  unfold Obligations.CancelReleaseDismount
  refine ⟨fun tag s hl hs hlo hhi => ⟨fun r hr horigin hcancel => ⟨fun hstate hover => ?_, fun hstate hstaged => ?_,
      exec_cancel_done hl hs hlo hhi hr horigin hcancel⟩, exec_cancel_unknown hl hs hlo hhi⟩,
    fun tag r s hl hs hlo hhi hr => ⟨fun hdone => ?_, exec_releaseRequest_refused hl hs hlo hhi hr,
      fun d hmount hmounted hdrive hd hshape => ?_, fun _ => exec_dismount_refused hl hs hlo hhi hr⟩⟩
  · have hopen : r.state ≠ .done := by rcases hstate with h | h <;> simp [h]
    exact ⟨_, _, exec_cancel_of_some hl hs hlo hhi hr horigin hcancel (Lib.cancel_of_waiting s.set hr hstate hover),
      Lib.req?_complete_self s.set tag .cancelled s.lib.begin r hr hopen horigin, rfl, rfl,
      Lib.complete_cause s.set tag .cancelled s.lib.begin r hr hopen horigin,
      fun serial v hcargo hv hheld => Lib.holder_complete s.set .cancelled (l := s.lib.begin) hr hopen horigin hcargo
        (by simp [hv, hheld])⟩
  · rw [exec_cancel_of_some hl hs hlo hhi hr horigin hcancel (Lib.cancel_of_current s.set hr hstate hstaged),
      Lib.settle_quiet _ _ rfl]
    rfl
  · exact ⟨_, exec_releaseRequest hl hs hlo hhi hr hdone, rfl, rfl, Lib.req?_freeEntry_self tag _,
      fun t ht => Lib.req?_freeEntry_other ht _⟩
  · have hdrives : ((s.lib.begin.reqRewinding s.set tag).orderUnload s.set d).drives
        = s.lib.drives.modify d (Drive.rewound s.set) := by
      rw [Lib.orderUnload_eq]
      simp
    obtain ⟨hself, hothers⟩ := Lib.drive_of_modify hdrives (by rw [drives_length_of_shape hshape]; exact hd)
    have hreq : ((s.lib.begin.reqRewinding s.set tag).orderUnload s.set d).req? tag
        = some { r with accruedFrom := none, state := .rewinding, stallLeft := none, qseq := none } := by
      rw [Lib.orderUnload_eq]
      exact (Lib.req?_reqRewinding_self s.set tag s.lib.begin).trans (by rw [begin_req?, hr]; rfl)
    refine ⟨_, _, exec_dismount hl hs hlo hhi hr hmount hmounted hdrive, hreq, rfl, rfl, ?_, ?_, ?_, hothers, ?_⟩
    · rw [hself]; rfl
    · rw [hself]; rfl
    · rw [Lib.orderUnload_eq, Lib.updDrive_out, Lib.send_out,
        Lib.reqRewinding_out s.set (l := s.lib.begin) hr (by rw [hmounted]; rfl)]
      rfl
    · rw [Lib.orderUnload_eq, Lib.updDrive_cat, Lib.send_cat, Lib.reqRewinding_cat]
      rfl

/-! ## The queue stall -/

namespace Lib

/-- The timer of a request has run out: it stops, and QUEUE-STALL is raised (R91). -/
def stalled (t : Nat) (l : Lib) : Lib := (l.updReq t fun q => { q with stallLeft := none }).raiseRequest .queueStall t

theorem stallExpired_of_due (g : Settings) {t : Nat} {l : Lib} {r : Request} (hr : l.req? t = some r)
    (hdue : r.stallLeft = some 0) :
    l.stallExpired g t = if (l.neededColumns r).any fun c => !l.inReach .a c && !l.inReach .b c then
      (l.stalled t).complete g t .noDestination else l.stalled t := by
  unfold stallExpired
  simp only [hr, hdue]
  rfl

theorem neededColumns_of_mount {l : Lib} {r : Request} (h : r.isMount = true) : l.neededColumns r = [] := by
  unfold neededColumns
  split
  · next hk => simp [Request.isMount, hk] at h
  · next hk => simp [Request.isMount, hk] at h
  · rfl

theorem req?_stalled {t : Nat} {l : Lib} {r : Request} (hr : l.req? t = some r) :
    (l.stalled t).req? t = some { r with stallLeft := none } := by
  refine (req?_updReq_self t _ l (by intro _; rfl)).trans ?_
  rw [hr]
  rfl

end Lib

theorem exec_queueStallExpiry {tag : Nat} {s : State} (hl : s.live) :
    exec (.queueStallExpiry tag) s = .next (s.settled (s.found.stallExpired s.set tag)) :=
  exec_event _ _ s hl rfl _ rfl

/-- Settles O55: the source is raised and the timer stops; an audit whose column is out of reach completes. -/
theorem queueStallRaised : Obligations.QueueStallRaised := by
  unfold Obligations.QueueStallRaised
  refine fun tag r s hl hr hdue => ⟨fun hmount => ?_, fun c hkind horigin hstate hcode hcursor ha hb => ?_⟩
  · rw [exec_queueStallExpiry hl, Lib.stallExpired_of_due s.set hr hdue, Lib.neededColumns_of_mount hmount]
    rfl
  · have hneeded : s.found.neededColumns r = [c.next] := by simp [Lib.neededColumns, hkind, hcursor]
    have hended : s.found.stallExpired s.set tag = (s.found.stalled tag).complete s.set tag .noDestination := by
      rw [Lib.stallExpired_of_due s.set hr hdue, hneeded]
      simp [ha, hb]
    have hstalled := Lib.req?_stalled hr
    have hopen : r.state ≠ .done := by simp [hstate]
    refine ⟨_, _, hended ▸ exec_queueStallExpiry hl,
      Lib.req?_complete_self s.set tag .noDestination _ _ hstalled hopen horigin, rfl, ?_,
      (Lib.complete_raised s.set .noDestination hstalled hopen horigin).subset (by simp [Lib.stalled])⟩
    simp [hcode]

end Sys2Proof.Machine
end

section
/-! The commands that create a request: Mount and Mount Scratch, Eject, Audit and Clean Drive, from their checks to
the entry they fill (R64, R67 to R70, R73, R85). -/

namespace Sys2Proof.Machine

/-! ## The entry of a request -/

/-- `m` differs from `l` in the catalogue, the request table, the prompt unit, the messages sent and the notes at
most. -/
def AdmitOnly (l m : Lib) : Prop :=
  m = { l with cat := m.cat, reqs := m.reqs, prompts := m.prompts, out := m.out, notes := m.notes }

theorem AdmitOnly.trans {l m n : Lib} (h : AdmitOnly l m) (k : AdmitOnly m n) : AdmitOnly l n := by
  unfold AdmitOnly at *; rw [k, h]

theorem CatOnly.toAdmit {l m : Lib} (h : CatOnly l m) : AdmitOnly l m := by
  unfold CatOnly AdmitOnly at *; rw [h]

theorem AdmitOnly.store {l m : Lib} (h : AdmitOnly l m) : m.store = l.store := by unfold AdmitOnly at h; rw [h]
theorem AdmitOnly.place {l m : Lib} (h : AdmitOnly l m) : m.place = l.place := by unfold AdmitOnly at h; rw [h]
theorem AdmitOnly.drives {l m : Lib} (h : AdmitOnly l m) : m.drives = l.drives := by unfold AdmitOnly at h; rw [h]
theorem AdmitOnly.rail {l m : Lib} (h : AdmitOnly l m) : m.rail = l.rail := by unfold AdmitOnly at h; rw [h]
theorem AdmitOnly.acct {l m : Lib} (h : AdmitOnly l m) : m.acct = l.acct := by unfold AdmitOnly at h; rw [h]
theorem AdmitOnly.start {l m : Lib} (h : AdmitOnly l m) : m.start = l.start := by unfold AdmitOnly at h; rw [h]

namespace Lib

theorem admitReq_only (g : Settings) (t : Nat) (o : Origin) (kind : Kind) (cargo : Cargo) (priority : Nat)
    (fill : Request → Request) (l : Lib) : AdmitOnly l (l.admitReq g t o kind cargo priority fill) := by
  unfold admitReq
  cases cargo with
  | none => rfl
  | volume s =>
    have h := (changeVol_only g s (fun v => { v with holder := some (v.holder.getD t) })
      { l with reqs := { l.reqs with
          live := l.reqs.live ++ [fill (freshRequest g t o kind (.volume s) priority (satAdd max32 l.reqs.arrivals 1))]
          arrivals := satAdd max32 l.reqs.arrivals 1 } }).toAdmit
    unfold AdmitOnly at h ⊢
    dsimp only [takeHold]
    rw [h]
  | unknown _ => rfl

theorem takeQueue_only (t : Nat) (l : Lib) : AdmitOnly l (l.takeQueue t) := rfl

theorem enterQueued_only (g : Settings) (t : Nat) (l : Lib) : AdmitOnly l (l.enterQueued g t) := by
  refine (takeQueue_only t l).trans ?_
  have h := setReqState_only g t .queued (l.takeQueue t)
  unfold AdmitOnly enterQueued
  rw [h]

/-- The request that fills the entry of a command (R64). -/
def newRequest (g : Settings) (t : Nat) (o : Origin) (kind : Kind) (cargo : Cargo) (priority : Nat)
    (fill : Request → Request) (l : Lib) : Request :=
  fill (freshRequest g t o kind cargo priority (satAdd max32 l.reqs.arrivals 1))

section
variable (g : Settings) {t : Nat} (o : Origin) (kind : Kind) (cargo : Cargo) (priority : Nat)
  {fill : Request → Request} {l : Lib}

theorem admitReq_reqs (t : Nat) (fill : Request → Request) (l : Lib) :
    (l.admitReq g t o kind cargo priority fill).reqs = { l.reqs with
      live := l.reqs.live ++ [l.newRequest g t o kind cargo priority fill]
      arrivals := satAdd max32 l.reqs.arrivals 1 } := by
  cases cargo <;> simp [admitReq, takeHold, newRequest]

theorem req?_admitReq_self (hnew : l.req? t = none) (hfill : ∀ r, (fill r).tag = r.tag) :
    (l.admitReq g t o kind cargo priority fill).req? t = some (l.newRequest g t o kind cargo priority fill) := by
  unfold req? at hnew ⊢
  rw [admitReq_reqs, List.find?_append, hnew]
  simp [newRequest, hfill, freshRequest]

theorem req?_admitReq_other (hfill : ∀ r, (fill r).tag = r.tag) {x : Nat} (hx : x ≠ t) :
    (l.admitReq g t o kind cargo priority fill).req? x = l.req? x := by
  unfold req?
  rw [admitReq_reqs, List.find?_append]
  simp [newRequest, hfill, freshRequest, Ne.symm hx]

/-- The new request holds its volume, and no other record is touched (R10). -/
theorem holder_admitReq {s : Serial} {v : Volume} (hv : l.vol? s = some v) (hfree : v.holder = none) :
    ((l.admitReq g t o kind (.volume s) priority fill).vol? s).bind Volume.holder = some t := by
  unfold admitReq takeHold
  dsimp only
  rw [vol?_changeVol_self _ _ _ _ (by intro v; rfl)]
  have hfound : Lib.vol? { l with reqs := { l.reqs with
      live := l.reqs.live ++ [fill (freshRequest g t o kind (.volume s) priority (satAdd max32 l.reqs.arrivals 1))]
      arrivals := satAdd max32 l.reqs.arrivals 1 } } s = some v := hv
  rw [hfound]
  simp [hfree]

theorem vol?_admitReq_other {s : Serial} (h : cargo ≠ .volume s) :
    (l.admitReq g t o kind cargo priority fill).vol? s = l.vol? s := by
  unfold admitReq
  cases cargo with
  | none => rfl
  | unknown _ => rfl
  | volume x => exact vol?_changeVol_other g x s _ _ (fun e => h (e ▸ rfl)) (by intro v; rfl)

end

/-! ## The list of a new request -/

/-- The request as it enters: QUEUED with the next queue sequence, in STARTING still HELD (R67). -/
def listedFirst (g : Settings) (l : Lib) (r : Request) : Request :=
  if l.start.state = .starting then r
  else { r with state := .queued, stallLeft := some g.timers.stall, qseq := some (satAdd max32 l.reqs.queueSeq 1) }

theorem req?_enterQueued_other (g : Settings) {t x : Nat} (hx : x ≠ t) (l : Lib) :
    (l.enterQueued g t).req? x = l.req? x := by
  unfold enterQueued takeQueue
  rw [req?_setReqState_other g t x .queued _ hx, req?_updReq_other t x _ _ hx (by intro _; rfl)]
  rfl

theorem setReqState_live_length (g : Settings) (t : Nat) (st : ReqState) (l : Lib) :
    (l.setReqState g t st).reqs.live.length = l.reqs.live.length := by
  cases hr : l.req? t with
  | none => simp [setReqState, hr]
  | some r => rw [setReqState_live g t st l r hr]; simp

theorem enterQueued_live_length (g : Settings) (t : Nat) (l : Lib) :
    (l.enterQueued g t).reqs.live.length = l.reqs.live.length := by
  unfold enterQueued
  rw [setReqState_live_length]
  simp [takeQueue]

theorem req?_takeQueue_self (t : Nat) (l : Lib) : (l.takeQueue t).req? t
    = (l.req? t).map fun q => { q with qseq := some (satAdd max32 l.reqs.queueSeq 1) } :=
  req?_updReq_self t _ _ (by intro _; rfl)

/-- A request that enters QUEUED from no list tells the dispatcher, and sends nothing (R95). -/
theorem enterQueued_quiet (g : Settings) {t : Nat} {l : Lib} {r : Request} (hr : l.req? t = some r)
    (hlist : r.state.inList = false) :
    (l.enterQueued g t).out = l.out ∧ (l.enterQueued g t).notes = { l.notes with wake := true } := by
  have htaken := req?_takeQueue_self t l
  rw [hr] at htaken
  refine ⟨setReqState_out g .queued htaken hlist, ?_⟩
  unfold enterQueued setReqState
  simp only [htaken, Option.map_some, hlist]
  rfl

theorem enterFirst_only (g : Settings) (t : Nat) (l : Lib) : AdmitOnly l (l.enterFirst g t) := by
  unfold enterFirst
  split
  · rfl
  · exact enterQueued_only g t l

theorem enterFirst_cat (g : Settings) (t : Nat) (l : Lib) : (l.enterFirst g t).cat = l.cat := by
  unfold enterFirst
  split
  · rfl
  · exact enterQueued_cat g t l

theorem enterFirst_live_length (g : Settings) (t : Nat) (l : Lib) :
    (l.enterFirst g t).reqs.live.length = l.reqs.live.length := by
  unfold enterFirst
  split
  · rfl
  · exact enterQueued_live_length g t l

theorem req?_enterFirst_self (g : Settings) (t : Nat) (l : Lib) :
    (l.enterFirst g t).req? t = (l.req? t).map (l.listedFirst g) := by
  unfold enterFirst listedFirst
  split
  · simp
  · exact req?_enterQueued_self g t l

theorem req?_enterFirst_other (g : Settings) {t x : Nat} (hx : x ≠ t) (l : Lib) :
    (l.enterFirst g t).req? x = l.req? x := by
  unfold enterFirst
  split
  · rfl
  · exact req?_enterQueued_other g hx l

end Lib

/-! ## A request admitted -/

/-- The serial of the volume a cargo is. -/
def Cargo.serial? : Cargo → Option Serial
  | .volume s => some s
  | .none => Option.none
  | .unknown _ => Option.none

theorem Cargo.serial?_eq_some {c : Cargo} {s : Serial} : c.serial? = some s ↔ c = .volume s := by
  cases c <;> simp [Cargo.serial?]

/-- The fields that a kind fills in are none of those that every new request has. -/
structure FillsKind (fill : Request → Request) : Prop where
  tag : ∀ r, (fill r).tag = r.tag
  origin : ∀ r, (fill r).origin = r.origin
  arrived : ∀ r, (fill r).arrived = r.arrived
  arrival : ∀ r, (fill r).arrival = r.arrival
  code : ∀ r, (fill r).code = r.code
  cancelPending : ∀ r, (fill r).cancelPending = r.cancelPending
  drive : ∀ r, (fill r).drive = r.drive
  state : ∀ r, (fill r).state = r.state
  stallLeft : ∀ r, (fill r).stallLeft = r.stallLeft
  qseq : ∀ r, (fill r).qseq = r.qseq

/-- The records with the new request of a host command in the list that the library state gives it (R67). -/
def State.entered (s : State) (tag : Nat) (kind : Kind) (cargo : Cargo) (priority : Nat) (fill : Request → Request) :
    Lib :=
  (s.lib.begin.admitReq s.set tag .link kind cargo priority fill).enterFirst s.set tag

/-- The request in its entry there. -/
def State.newcomer (s : State) (tag : Nat) (kind : Kind) (cargo : Cargo) (priority : Nat) (fill : Request → Request) :
    Request :=
  s.lib.listedFirst s.set (s.lib.newRequest s.set tag .link kind cargo priority fill)

section
variable {s : State} {tag : Nat} {kind : Kind} {cargo : Cargo} {priority : Nat} {fill : Request → Request}

theorem State.entered_only : AdmitOnly s.lib.begin (s.entered tag kind cargo priority fill) :=
  (Lib.admitReq_only ..).trans (Lib.enterFirst_only ..)

theorem State.req?_entered_self (hnew : s.lib.req? tag = none) (hfill : ∀ r, (fill r).tag = r.tag) :
    (s.entered tag kind cargo priority fill).req? tag = some (s.newcomer tag kind cargo priority fill) := by
  unfold State.entered State.newcomer
  rw [Lib.req?_enterFirst_self, Lib.req?_admitReq_self s.set .link kind cargo priority (by exact hnew) hfill]
  unfold Lib.listedFirst
  rw [(Lib.admitReq_only ..).start, Lib.admitReq_reqs]
  rfl

theorem State.entered_live_length :
    (s.entered tag kind cargo priority fill).reqs.live.length = s.lib.reqs.live.length + 1 := by
  unfold State.entered
  rw [Lib.enterFirst_live_length, Lib.admitReq_reqs]
  simp

/-- The new request holds its volume. -/
theorem State.holder_entered {x : Serial} {v : Volume} (hv : s.lib.vol? x = some v) (hfree : v.holder = none) :
    ((s.entered tag kind (.volume x) priority fill).vol? x).bind Volume.holder = some tag := by
  unfold State.entered
  rw [Lib.vol?_of_vols (congrArg Catalogue.vols (Lib.enterFirst_cat s.set tag _)),
    Lib.holder_admitReq s.set .link kind priority (by exact hv) hfree]

/-- A request-creating command whose checks have passed admits its request (R67). -/
theorem State.admits_of_entered {c : Instr} {P : Request → Prop}
    (hexec : exec c s = .next (s.after s.set ((s.entered tag kind cargo priority fill).settle s.set) (.good [])))
    (hnew : s.lib.req? tag = none) (hfill : FillsKind fill)
    (hcargo : ∀ x, cargo = .volume x → ∃ v, s.lib.vol? x = some v ∧ v.holder = none)
    (hP : P (s.newcomer tag kind cargo priority fill)) : s.admits c tag cargo.serial? P := by
  have hkept {α : Type} (f : Request → α) (hf : ∀ r, f (s.lib.listedFirst s.set r) = f r) (hr : ∀ r, f (fill r) = f r) :
      f (s.newcomer tag kind cargo priority fill) = f (Lib.freshRequest s.set tag .link kind cargo priority
        (satAdd max32 s.lib.reqs.arrivals 1)) := (hf _).trans (hr _)
  have honly := State.entered_only (s := s) (tag := tag) (kind := kind) (cargo := cargo) (priority := priority)
    (fill := fill)
  refine ⟨_, _, hexec, State.req?_entered_self hnew hfill.tag, hkept Request.tag ?_ hfill.tag,
    hkept Request.origin ?_ hfill.origin, hkept Request.arrived ?_ hfill.arrived,
    hkept Request.arrival ?_ hfill.arrival, hkept Request.code ?_ hfill.code,
    hkept Request.cancelPending ?_ hfill.cancelPending, hkept Request.drive ?_ hfill.drive, hP,
    State.entered_live_length, fun t ht => ?_, fun x hx => ?_, fun x hx => ?_, honly.drives, honly.place, honly.rail,
    honly.acct, honly.start⟩
  iterate 7 intro r; unfold Lib.listedFirst; split <;> rfl
  · unfold State.entered
    rw [Lib.req?_enterFirst_other s.set ht, Lib.req?_admitReq_other s.set .link kind cargo priority hfill.tag ht]
    rfl
  · have hx := Cargo.serial?_eq_some.1 hx
    obtain ⟨v, hv, hfree⟩ := hcargo x hx
    rw [hx]
    exact State.holder_entered hv hfree
  · unfold State.entered
    rw [Lib.vol?_of_vols (congrArg Catalogue.vols (Lib.enterFirst_cat s.set tag _)),
      Lib.vol?_admitReq_other s.set .link kind cargo priority fun h => hx (Cargo.serial?_eq_some.2 h)]
    rfl

end

/-! ## The checks -/

/-- The library state admits the requests of the host (R67). -/
def State.admitting (s : State) : Prop :=
  s.lib.start.state = .ready ∨ s.lib.start.state = .starting ∧ ∃ n, s.lib.start.limit = .running n

theorem State.admitting.serving {s : State} (h : s.admitting) : s.serving := h.imp_right And.left

/-- A command that creates a request goes on to its own checks (R65, R67). -/
theorem admission_open {s : State} (clean : Bool) (k : Applied) (hadmit : s.lib.admits clean = true)
    (hserving : s.serving) (hroom : s.lib.hostFull = false) : admission clean s.set s.lib.begin k = k := by
  have hfull : s.lib.begin.hostFull = false := hroom
  unfold admission
  rw [gated_checks_of_forall hserving _ _ _ _ (List.forall_mem_singleton.2 hadmit), hfull]
  rfl

theorem admits_of_admitting {s : State} (h : s.admitting) : s.lib.admits false = true := by
  rcases h with h | ⟨h, n, hn⟩
  · simp [Lib.admits, h]
  · simp [Lib.admits, h, hn, StartLimit.isRunning]

theorem admits_of_ready {s : State} (clean : Bool) (h : s.lib.start.state = .ready) : s.lib.admits clean = true := by
  simp [Lib.admits, h]

theorem tagChecks_pass {l : Lib} {tag : Nat} (hlo : 1 ≤ tag) (hhi : tag ≤ 32767) (hnew : l.req? tag = none) :
    ∀ c ∈ tagChecks l tag, c.1 = true := by
  simp [tagChecks, hlo, hhi, hnew]

/-- The checks of the tag and those that follow them pass together. -/
theorem checks_tag {l : Lib} {tag : Nat} (g : Settings) {cs : List (Bool × Sense × Subject)} (k : Applied)
    (hlo : 1 ≤ tag) (hhi : tag ≤ 32767) (hnew : l.req? tag = none) (h : ∀ c ∈ cs, c.1 = true) :
    checks (tagChecks l tag ++ cs) g l k = k :=
  checks_eq_of_forall g l k (List.forall_mem_append.2 ⟨tagChecks_pass hlo hhi hnew, h⟩)

theorem accountChecks_open {n : Nat} {a : Account} {l : Lib} (g : Settings) (k : Applied) (ha : l.account? n = some a)
    (hopen : a.suspended = false) (hquota : l.underQuota a = true) : accountChecks n g l k = k := by
  unfold accountChecks
  simp [ha, hopen, hquota]

/-- A drive of a suiting kind has the path and the density (R50). -/
theorem Lib.couldServe_iff {l : Lib} {r : Request} {p c : Nat} (manualToo : Bool) (hpath : r.path = some p)
    (hdensity : r.density = some c) : l.couldServe r manualToo = true ↔
      ∃ w ∈ l.drives, ∃ x, w.defn = some x ∧ p ∈ x.paths ∧ c ∈ x.densities ∧ (manualToo = true ∨ x.kind ≠ .manual) := by
  unfold Lib.couldServe
  rw [List.any_eq_true]
  refine exists_congr fun w => and_congr_right fun _ => ?_
  cases w.defn <;> simp [Lib.defFits, hpath, hdensity, and_assoc]

/-! ## Mount -/

/-- The class of a cleaner (R1). -/
def VolClass.isCleaner : VolClass → Bool
  | .cleaner _ => true
  | .priv _ _ => false
  | .scratch => false

theorem VolClass.isCleaner_eq_false {c : VolClass} (h : ∀ u, c ≠ .cleaner u) : c.isCleaner = false := by
  cases c with
  | cleaner u => exact absurd rfl (h u)
  | priv _ _ => rfl
  | scratch => rfl

/-- The checks of a Mount on its volume and on the drives (R68). -/
def mountChecks (f : MountBlock) (v : Volume) (g : Settings) (l : Lib) : List (Bool × Sense × Subject) :=
  [(v.holder.isNone, .volumeInUse, .serial f.serial),
   (!v.cls.isCleaner && (v.state = .home || (v.state = .shelf && f.manualAllowed = 1)),
    .volumeState, .serial f.serial),
   (f.access = 1 || v.ring, .ringAbsent, .serial f.serial),
   (l.couldServe (fillMount f v (Lib.freshRequest g f.tag .link .mount .none f.priority 0)) (v.state = .shelf),
    .noEligibleDrive, .tag f.tag)]

/-- What a Mount asks of the library before it comes to its volume (R65, R67, R68). -/
structure MountOpen (f : MountBlock) (a : Account) (v : Volume) (s : State) : Prop where
  admitting : s.admitting
  room : s.lib.hostFull = false
  account : s.lib.account? f.account = some a
  open_ : a.suspended = false
  quota : s.lib.underQuota a = true
  low : 1 ≤ f.tag
  high : f.tag ≤ 32767
  fresh : s.lib.req? f.tag = none
  fields : mountFieldsOk f = true
  found : s.lib.vol? f.serial = some v

section
variable {f : MountBlock} {a : Account} {v : Volume} {s : State}

theorem cmdMount_open (h : MountOpen f a v s) : cmdMount f s.set s.lib.begin
    = checks (mountChecks f v s.set s.lib.begin) s.set s.lib.begin
        (.good s.set (s.lib.begin.admitMount s.set f v) []) := by
  unfold cmdMount
  rw [admission_open false _ (admits_of_admitting h.admitting) h.admitting.serving h.room,
    checks_tag s.set _ h.low h.high (by exact h.fresh) (by simp [h.fields]),
    accountChecks_open s.set _ (by exact h.account) h.open_ (by exact h.quota)]
  simp only [begin_vol?, h.found]
  unfold mountChecks
  cases v.cls <;> rfl

/-- A Mount whose volume is HOME, or may be brought to a drive by hand, is admitted (R68). -/
theorem exec_mount (hl : s.live) (h : MountOpen f a v s) (hfree : v.holder = none) (hcls : ∀ u, v.cls ≠ .cleaner u)
    (hplace : v.state = .home ∨ v.state = .shelf ∧ f.manualAllowed = 1) (hring : f.access = 1 ∨ v.ring = true)
    (hserved : ∃ w ∈ s.lib.drives, ∃ x, w.defn = some x ∧ f.path ∈ x.paths ∧ v.density ∈ x.densities
      ∧ (v.state = .shelf ∨ x.kind ≠ .manual)) :
    exec (.mount f) s = .next (s.after s.set ((s.lib.begin.admitMount s.set f v).settle s.set) (.good [])) := by
  have hcould := (Lib.couldServe_iff (l := s.lib.begin) (decide (v.state = .shelf))
    (r := fillMount f v (Lib.freshRequest s.set f.tag .link .mount .none f.priority 0)) rfl rfl).2
    (by simpa using hserved)
  refine exec_good _ _ s hl rfl _ _ _ ?_
  rw [cmdMount_open h, checks_eq_of_forall]
  simp [mountChecks, hfree, VolClass.isCleaner_eq_false hcls, hplace, hring, hcould]

end

theorem fillMount_fillsKind (f : MountBlock) (v : Volume) : FillsKind (fillMount f v) where
  tag _ := rfl
  origin _ := rfl
  arrived _ := rfl
  arrival _ := rfl
  code _ := rfl
  cancelPending _ := rfl
  drive _ := rfl
  state _ := rfl
  stallLeft _ := rfl
  qseq _ := rfl

/-- A Mount of a volume that is HOME enters the list at once (R67, R68). -/
theorem admitMount_home {f : MountBlock} {v : Volume} {s : State} (hhome : v.state = .home) :
    s.lib.begin.admitMount s.set f v = s.entered f.tag .mount (.volume f.serial) f.priority (fillMount f v) := by
  unfold Lib.admitMount
  simp only [hhome, decide_true, Bool.true_or, if_true]
  rfl

/-! ## Mount Scratch -/

theorem fillScratch_fillsKind (f : ScratchBlock) (p : Option Place) : FillsKind (fillScratch f p) where
  tag _ := rfl
  origin _ := rfl
  arrived _ := rfl
  arrival _ := rfl
  code _ := rfl
  cancelPending _ := rfl
  drive _ := rfl
  state _ := rfl
  stallLeft _ := rfl
  qseq _ := rfl

theorem exec_mountScratch {f : ScratchBlock} {a : Account} {v : Volume} {s : State} (hl : s.live)
    (hadmitting : s.admitting) (hroom : s.lib.hostFull = false) (ha : s.lib.account? f.account = some a)
    (hopen : a.suspended = false) (hquota : s.lib.underQuota a = true) (hlo : 1 ≤ f.tag) (hhi : f.tag ≤ 32767)
    (hnew : s.lib.req? f.tag = none) (hfields : scratchFieldsOk f = true)
    (hserved : ∃ w ∈ s.lib.drives, ∃ x, w.defn = some x ∧ f.path ∈ x.paths ∧ f.density ∈ x.densities ∧ x.kind ≠ .manual)
    (hv : s.lib.scratchOf f.density = some v) :
    exec (.mountScratch f) s = .next (s.after s.set ((s.entered f.tag .mountScratch (.volume v.serial) f.priority
      (fillScratch f (Lib.homeSource v))).settle s.set) (.good [])) := by
  have hcould := (Lib.couldServe_iff (l := s.lib.begin) false
    (r := fillScratch f none (Lib.freshRequest s.set f.tag .link .mountScratch .none f.priority 0)) rfl rfl).2
    (by simpa using hserved)
  have hchosen : s.lib.begin.scratchOf f.density = some v := hv
  refine exec_good _ _ s hl rfl _ _ _ ?_
  unfold cmdMountScratch
  rw [admission_open false _ (admits_of_admitting hadmitting) hadmitting.serving hroom,
    checks_tag s.set _ hlo hhi (by exact hnew) (by simp [hfields]),
    accountChecks_open s.set _ (by exact ha) hopen (by exact hquota),
    checks_eq_of_forall _ _ _ (List.forall_mem_singleton.2 hcould)]
  simp only [hchosen]
  rfl

/-- The newcomer is QUEUED in READY and HELD in STARTING (R67). -/
theorem State.newcomer_eq {s : State} (tag : Nat) (kind : Kind) (cargo : Cargo) (priority : Nat)
    {fill : Request → Request} (hfill : FillsKind fill) (h : s.admitting) :
    s.newcomer tag kind cargo priority fill = { s.lib.newRequest s.set tag .link kind cargo priority fill with
      state := if s.lib.start.state = .ready then .queued else .held
      stallLeft := if s.lib.start.state = .ready then some s.set.timers.stall else none
      qseq := if s.lib.start.state = .ready then some (satAdd max32 s.lib.reqs.queueSeq 1) else none } := by
  have hstate : (s.lib.newRequest s.set tag .link kind cargo priority fill).state = .held := hfill.state _
  have hstall : (s.lib.newRequest s.set tag .link kind cargo priority fill).stallLeft = none := hfill.stallLeft _
  have hqseq : (s.lib.newRequest s.set tag .link kind cargo priority fill).qseq = none := hfill.qseq _
  unfold State.newcomer Lib.listedFirst
  rcases h with h | ⟨h, -⟩
  · simp [h]
  · generalize s.lib.newRequest s.set tag .link kind cargo priority fill = r at *
    cases r
    simp_all

/-- Settles O51: each command fills the entry, and the newcomer has the fields of its block. -/
theorem mountsAdmitted : Obligations.MountsAdmitted := by
  unfold Obligations.MountsAdmitted
  intro a v s hl hadmitting hroom ha _ _ hopen hquota hv hfree hhome listed served
  have hheld : ∀ x, Cargo.volume v.serial = .volume x → ∃ w, s.lib.vol? x = some w ∧ w.holder = none := by
    rintro x ⟨rfl⟩
    exact ⟨v, hv, hfree⟩
  refine ⟨fun f hserial haccount hlo hhi hnew hfields hcls hring hserved => ?_,
    fun f haccount hlo hhi hnew hfields hserved hscratch => ?_⟩
  · have hmount : MountOpen f a v s := ⟨hadmitting, hroom, haccount ▸ ha, hopen, hquota, hlo, hhi, hnew, hfields,
      hserial ▸ hv⟩
    have hexec := exec_mount hl hmount hfree hcls (.inl hhome) hring (by simpa [hhome] using hserved)
    rw [admitMount_home hhome, hserial] at hexec
    refine State.admits_of_entered hexec hnew (fillMount_fillsKind f v) hheld ?_
    rw [State.newcomer_eq _ _ _ _ (fillMount_fillsKind f v) hadmitting]
    exact ⟨rfl, rfl, rfl, rfl, congrArg some haccount, rfl, rfl, rfl, if_pos hhome, if_pos hhome, rfl, rfl⟩
  · refine State.admits_of_entered (exec_mountScratch hl hadmitting hroom (haccount ▸ ha) hopen hquota hlo hhi hnew
      hfields hserved hscratch) hnew (fillScratch_fillsKind f _) hheld ?_
    rw [State.newcomer_eq _ _ _ _ (fillScratch_fillsKind f _) hadmitting]
    exact ⟨rfl, rfl, rfl, rfl, congrArg some haccount, rfl, rfl, rfl, rfl, rfl, rfl, rfl⟩

/-! ## A Mount of a shelf volume -/

namespace Lib

theorem req?_giveManual_self (g : Settings) (d t : Nat) (l : Lib) :
    (l.giveManual g d t).req? t = (l.req? t).map fun r => { r with drive := some d, qseq := none } := by
  unfold giveManual
  dsimp only
  rw [req?_of_live (postRequest_live g _ _ _ _ _)]
  exact req?_updReq_self t _ l (by intro _; rfl)

/-- The request whose route is chosen is in MANUAL, as the request it was, and goes to a MANUAL drive or to the
station (R73). -/
theorem req?_chooseRoute_self (g : Settings) {t : Nat} {l : Lib} {r : Request} (hr : l.req? t = some r) :
    ∃ q, (l.chooseRoute g t).req? t = some q ∧ q.state = .manual ∧ q.cargo = r.cargo
      ∧ (q.route = some .manualDrive ∨ q.route = some .station) := by
  have hmanual := req?_setReqState_self g t .manual l
  rw [hr] at hmanual
  have hrouted (route : Route) : ((l.setReqState g t .manual).updReq t fun q => { q with route := some route }).req? t
      = _ := (req?_updReq_self t (fun q => { q with route := some route }) _ (by intro _; rfl)).trans
        (congrArg _ hmanual)
  unfold chooseRoute
  simp only [hr]
  split
  · rw [req?_giveManual_self, hrouted]
    exact ⟨_, rfl, rfl, rfl, .inl rfl⟩
  · split
    · rw [req?_of_live (postRequest_live g _ _ _ _ _), hrouted]
      exact ⟨_, rfl, rfl, rfl, .inr rfl⟩
    · rw [req?_takeQueue_self, hrouted]
      exact ⟨_, rfl, rfl, rfl, .inl rfl⟩

theorem admitMount_shelf (g : Settings) {f : MountBlock} {v : Volume} {l : Lib} (hshelf : v.state = .shelf)
    (hready : l.start.state = .ready) : l.admitMount g f v
      = (l.admitReq g f.tag .link .mount (.volume f.serial) f.priority (fillMount f v)).chooseRoute g f.tag := by
  unfold admitMount
  dsimp only
  rw [(admitReq_only ..).start, hready, hshelf]
  rfl

end Lib

/-- Settles O52: with its checks passed the Mount has its route chosen; otherwise the check concerned refuses it. -/
theorem shelfMountRouted : Obligations.ShelfMountRouted := by
  unfold Obligations.ShelfMountRouted
  intro f a v s hl hready hroom ha hopen hquota hlo hhi hnew hfields hv hfree hshelf hcls hring served
  have hmount : MountOpen f a v s := ⟨.inl hready, hroom, ha, hopen, hquota, hlo, hhi, hnew, hfields, hv⟩
  have hcould := (Lib.couldServe_iff (l := s.lib.begin) true
    (r := fillMount f v (Lib.freshRequest s.set f.tag .link .mount .none f.priority 0)) rfl rfl).trans
      (show _ ↔ served by simp [served])
  have hreadable : (decide (f.access = 1) || v.ring) = true := by simpa using hring
  refine ⟨fun hmanual hserved => ?_, fun hmanual => ?_, fun hmanual hserved => ?_⟩
  · obtain ⟨q, hq, hstate, hcargo, hroute⟩ := Lib.req?_chooseRoute_self s.set
      (Lib.req?_admitReq_self s.set .link .mount (.volume f.serial) f.priority (l := s.lib.begin) hnew
        (fillMount_fillsKind f v).tag)
    rw [← Lib.admitMount_shelf s.set hshelf (by exact hready)] at hq
    exact ⟨_, q, exec_mount hl hmount hfree hcls (.inr ⟨hshelf, hmanual⟩) hring (by simpa [hshelf] using hserved), hq,
      hstate, hcargo, hroute⟩
  · refine exec_refuse _ _ s hl rfl _ _ ?_
    rw [cmdMount_open hmount]
    simp [mountChecks, hfree, VolClass.isCleaner_eq_false hcls, hshelf, hmanual]
  · have hnone := Bool.eq_false_iff.2 (mt hcould.1 hserved)
    refine exec_refuse _ _ s hl rfl _ _ ?_
    rw [cmdMount_open hmount]
    simp [mountChecks, hfree, VolClass.isCleaner_eq_false hcls, hshelf, hmanual, hreadable, hnone]

end Sys2Proof.Machine
end

section
/-! The dispatcher's choice for the one request of a library at rest (R95 to R98), and the order that goes out for it
(R102, R104). -/

namespace Sys2Proof.Machine

/-! ## An order sent -/

theorem OrdersOnly.reqs {l m : Lib} (h : OrdersOnly l m) : m.reqs = l.reqs := by unfold OrdersOnly at h; rw [h]
theorem OrdersOnly.drives {l m : Lib} (h : OrdersOnly l m) : m.drives = l.drives := by unfold OrdersOnly at h; rw [h]
theorem OrdersOnly.store {l m : Lib} (h : OrdersOnly l m) : m.store = l.store := by unfold OrdersOnly at h; rw [h]

/-- The accessor goes on the order: it is MOVING with the step timer started, the order is its current one under the
next number, and the ORDER has been sent (R102, R104, R108). -/
structure OrderSent (g : Settings) (x : AccId) (o : Order) (body : OrderBody) (counter : Nat) (m : Lib) : Prop where
  state : (m.acc x).state = .moving
  timer : (m.acc x).timer = some g.timers.step
  current : (m.acc x).current = some { o with number := some (nextOrder counter) }
  order : Msg.order x (nextOrder counter) body ∈ m.out

namespace Lib

theorem updateLock_rail (l : Lib) : l.updateLock.rail = l.rail := by
  unfold updateLock
  dsimp only
  split
  · rfl
  · split <;> rfl

theorem updateLock_acc (x : AccId) (l : Lib) : l.updateLock.acc x = l.acc x := acc_of_rail (updateLock_rail l) x

theorem send_acc (m : Msg) (x : AccId) (l : Lib) : (l.send m).acc x = l.acc x := acc_of_rail (send_rail l m) x

theorem leftWait_acc (x y : AccId) (l : Lib) : (l.leftWait x).acc y = l.acc y := by
  unfold leftWait
  split
  · cases y <;> rfl
  · rfl

/-- What an ORDER carries rests on the requests alone (R208). -/
theorem orderBody_of_reqs {l m : Lib} (h : m.reqs = l.reqs) (x : AccId) (o : Order) :
    m.orderBody x o = l.orderBody x o := by
  have hreq : m.req? = l.req? := by unfold req?; rw [h]
  have hexpected : m.expectedAt = l.expectedAt := by unfold expectedAt cargoOf; rw [hreq]
  unfold orderBody
  rw [hexpected]

section
variable (g : Settings) {x : AccId} {o : Order} {body : OrderBody} {l : Lib}

theorem sendOrder_sends (hcur : (l.acc x).current = some o) (hbody : l.orderBody x o = some body) :
    OrderSent g x o body (l.acc x).counter (l.sendOrder g x) := by
  have hbody' := (orderBody_of_reqs (updateLock_only l).reqs x o).trans hbody
  unfold sendOrder
  simp only [updateLock_acc, hcur, hbody']
  constructor <;> simp [send_acc]

/-- An order that needs no step at the station is sent as soon as it has its span (R104, R107). -/
theorem granted_sends (s : Span) (hcur : (l.acc x).current = some o) (hstation : o.stationLeft = false)
    (hbody : l.orderBody x o = some body) : OrderSent g x o body (l.acc x).counter (l.granted g x s) := by
  unfold granted
  simp only [hcur, Option.any_some, hstation, Bool.and_false, Bool.false_eq_true, if_false]
  have hgiven (f : Accessor → Accessor) (hf : ∀ v, (f v).current = v.current ∧ (f v).counter = v.counter) :
      OrderSent g x o body (l.acc x).counter (((l.updAcc x f).leftWait x).sendOrder g x) := by
    obtain ⟨hcurrent, hcounter⟩ := hf (l.acc x)
    have hacc : ((l.updAcc x f).leftWait x).acc x = f (l.acc x) := by rw [leftWait_acc, acc_updAcc_self]
    have hreqs : ((l.updAcc x f).leftWait x).reqs = l.reqs := ((updAcc_only x f l).trans (leftWait_only x _)).reqs
    rw [← hcounter, ← hacc]
    exact sendOrder_sends g (by rw [hacc, hcurrent, hcur]) ((orderBody_of_reqs hreqs x o).trans hbody)
  exact hgiven _ fun _ => ⟨rfl, rfl⟩

/-- A current order whose span may be granted is sent (R104). -/
theorem takeUp_sends (hcur : (l.acc x).current = some o) (hfits : l.fits x (l.orderSpan x o) = true)
    (hstation : o.stationLeft = false) (hbody : l.orderBody x o = some body) :
    OrderSent g x o body (l.acc x).counter (l.takeUp g x) := by
  unfold takeUp
  simp only [hcur, hfits, if_true]
  exact granted_sends g _ hcur hstation hbody

theorem takeUp_ordersOnly (hcur : (l.acc x).current = some o) (hfits : l.fits x (l.orderSpan x o) = true) :
    OrdersOnly l (l.takeUp g x) := by
  unfold takeUp
  simp only [hcur, hfits, if_true]
  exact granted_only g x _ l

end

/-! ## The library at rest -/

/-- A READY library with both accessors IDLE and no order in hand, and one request, which is QUEUED; the dispatcher is
to run. -/
structure AtRest (r : Request) (l : Lib) : Prop where
  ready : l.start.state = .ready
  interlock : l.rail.interlock = false
  idle : ∀ y, (l.acc y).state = .idle ∧ (l.acc y).current = none ∧ (l.acc y).staged = none
  live : l.reqs.live = [r]
  queued : r.state = .queued
  notes : l.notes = { Notes.none with wake := true }

section
variable {l : Lib} {r : Request}

theorem AtRest.jobs (h : l.AtRest r) : l.jobs = [r] := by
  unfold Lib.jobs
  simp [h.live, h.queued, ReqState.inList, sortBy, insertBy]

theorem AtRest.req? (h : l.AtRest r) : l.req? r.tag = some r := by
  simp [Lib.req?, h.live]

/-- Only its column and the conditions of its kind decide where the request can go (R96). -/
theorem AtRest.dispatchable (h : l.AtRest r) (hsource : ∀ y, r.source ≠ some (.gripper y)) (g : Settings) (x : AccId) :
    l.dispatchable g x r = (l.inReach x (l.jobColumn x r) && l.kindAllows g x r) := by
  have htake : l.mayTake x = true := by simp [mayTake, h.ready, h.interlock, (h.idle x).1]
  have hgripper : l.gripperAllows x r = true := by
    unfold gripperAllows
    simp only [h.live, List.all_cons, List.all_nil, decide_true, Bool.or_true, Bool.and_true]
  unfold Lib.dispatchable
  simp [htake, hgripper, h.queued, ReqState.inList]

/-- The accessor is the nearer one by the distances given, A when both are as near (R97). -/
def Nearer (far : AccId → Nat) : AccId → Prop
  | .a => far .a ≤ far .b
  | .b => far .b < far .a

/-- The nearer of the accessors that can take the request gets it, A when both are as near (R97). -/
theorem AtRest.chooseAccessor (h : l.AtRest r) (g : Settings) {x : AccId} (hx : l.dispatchable g x r = true)
    (hother : l.dispatchable g (other x) r = true → Nearer (fun y => l.jobDistance y r) x) :
    l.chooseAccessor g r = some x := by
  have hslot (y : AccId) : l.slotEmpty y = true := by simp [slotEmpty, (h.idle y).2.2]
  unfold Lib.chooseAccessor
  simp only [hslot, Bool.true_and]
  cases x with
  | a =>
    cases hb : l.dispatchable g .b r with
    | false => simp [hx]
    | true =>
      have hnear : l.jobDistance .a r ≤ l.jobDistance .b r := hother hb
      simp [hx, hnear]
  | b =>
    cases ha : l.dispatchable g .a r with
    | false => simp [hx]
    | true =>
      have hnear : l.jobDistance .b r < l.jobDistance .a r := hother ha
      simp [hx, hnear]

end

/-! ## A run of the dispatcher that stages one job -/

section
variable (g : Settings) {l m : Lib}

theorem passes_of_no_jobs (n : Nat) (h : m.jobs = []) : m.passes g n = m := by
  have hpass : m.pass g = m := by simp [pass, h]
  cases n with
  | zero => rfl
  | succ n => unfold passes; simp [hpass]

theorem displace_of_no_jobs (h : m.jobs = []) : m.displace g = none := by
  unfold displace
  rw [h]
  rfl

/-- The one job is staged, and then no list has another. -/
theorem AtRest.dispatch {r : Request} (h : l.AtRest r) {x : AccId} (n : Nat) (hx : l.chooseAccessor g r = some x)
    (hm : l.stage g x r = m) (hjobs : m.jobs = []) : l.dispatch g (n + 1) = m := by
  have hpass : l.pass g = m := by simp [pass, tryJob, h.jobs, h.req?, hx, hm]
  have hpasses : l.passes g Config.requestEntries = m := by
    show l.passes g (47 + 1) = m
    unfold passes
    simp [hpass, hjobs, h.jobs, passes_of_no_jobs]
  unfold Lib.dispatch
  simp only [hpasses, displace_of_no_jobs g hjobs]

/-- The step is settled with the one job staged. -/
theorem AtRest.settle {r : Request} (h : l.AtRest r) {x : AccId} (hx : l.chooseAccessor g r = some x)
    (hm : l.stage g x r = m) (hjobs : m.jobs = []) (hnotes : m.notes = l.notes) :
    l.settle g = { m with notes := .none } := by
  have hdispatch : l.dispatch g Config.requestEntries = m := h.dispatch g 47 hx hm hjobs
  have hone : l.settleOne g = { m with notes := .none } := by
    unfold settleOne
    simp only [h.notes, Notes.none, Bool.false_eq_true, if_false, hdispatch, hnotes]
  have hquiesce : l.quiesce g 64 = { m with notes := .none } := by
    unfold quiesce
    simp only [h.notes, quiet, Bool.not_true, Bool.and_false, Bool.false_eq_true, if_false]
    rw [hone, quiesce_quiet g 63 _ rfl]
  unfold Lib.settle rounds
  rw [hquiesce]
  rfl

end

/-- An order prepared for an accessor without one becomes its current order (R98). -/
theorem stage_of_prepare (g : Settings) {x : AccId} {r : Request} {l m : Lib} {o : Order}
    (hprepare : l.prepare g x r = (m, some o)) (hcur : (m.acc x).current = none)
    (hplace : (m.makeCurrent g x o).notes.placeFreed = false) : l.stage g x r = m.makeCurrent g x o := by
  unfold stage
  simp only [hprepare, hcur, Option.isNone_none, if_true, offerPlaces, hplace, Bool.false_eq_true, if_false]

/-- Nothing but a run of the dispatcher was noted: a request's state notes nothing more. -/
theorem setReqState_notes_of_wake (g : Settings) (t : Nat) (st : ReqState) {l : Lib}
    (h : l.notes = { Notes.none with wake := true }) : (l.setReqState g t st).notes = l.notes := by
  rcases setReqState_notes g t st l with hn | hn
  · exact hn
  · rw [hn, h]

theorem live_eq_singleton {l : Lib} {t : Nat} {q : Request} (hlen : l.reqs.live.length = 1) (hq : l.req? t = some q) :
    l.reqs.live = [q] := by
  obtain ⟨p, hp⟩ := List.length_eq_one_iff.1 hlen
  have hmem := List.mem_of_find?_eq_some hq
  rw [hp, List.mem_singleton] at hmem
  rw [hp, hmem]

theorem jobs_eq_nil {l : Lib} {q : Request} (hlive : l.reqs.live = [q]) (hlist : q.state.inList = false) :
    l.jobs = [] := by
  unfold jobs
  simp [hlive, hlist, sortBy]

/-! ## An Audit -/

/-- The order of an audit's next column (R86). -/
def scanOrder (r : Request) (c : Cursor) : Order :=
  { kind := .scan c.next, number := none, serves := some r.tag, progress := .notPicked, newHome := false }

theorem prepare_audit (g : Settings) (x : AccId) {r : Request} {c : Cursor} (l : Lib) (hstate : r.state = .queued)
    (hkind : r.kind = .audit) (hcursor : r.cursor = some c) :
    l.prepare g x r = (l.setReqState g r.tag .moving, some (scanOrder r c)) := by
  unfold prepare
  simp only [hstate, hkind, hcursor]
  rfl

theorem makeCurrent_scan (g : Settings) (x : AccId) (r : Request) (c : Cursor) (l : Lib) :
    l.makeCurrent g x (scanOrder r c)
      = ((l.updAcc x fun v => { v with current := some (scanOrder r c) }).updateLock).takeUp g x := rfl

theorem orderSpan_scan (x : AccId) (r : Request) (c : Cursor) (l : Lib) : l.orderSpan x (scanOrder r c)
    = ⟨min (l.acc x).pos c.next, max (l.acc x).pos c.next⟩ := rfl

theorem fits_of_other {l m : Lib} {x : AccId} (h : m.acc (other x) = l.acc (other x)) (s : Span) :
    m.fits x s = l.fits x s := by
  cases x <;> simp only [other] at h <;> simp only [fits, h]

theorem jobDistance_of_idle {x : AccId} {r : Request} {l : Lib} (h : (l.acc x).current = none) :
    l.jobDistance x r = distance (l.acc x).pos (l.jobColumn x r) := by
  unfold jobDistance
  rw [h]

section
variable (g : Settings) {l : Lib} {r : Request} {c : Cursor} {x : AccId}

theorem AtRest.audit_dispatchable (h : l.AtRest r) (hkind : r.kind = .audit) (hcursor : r.cursor = some c)
    (hsource : r.source = none) (y : AccId) : l.dispatchable g y r = l.inReach y c.next := by
  rw [h.dispatchable (by simp [hsource])]
  simp [jobColumn, hcursor, kindAllows, h.queued, hkind]

/-- The audit goes to the accessor chosen, and its first column is scanned at once (R86, R97, R98). -/
theorem AtRest.audit_goes (h : l.AtRest r) (hkind : r.kind = .audit) (hcursor : r.cursor = some c)
    (hsource : r.source = none) (hreach : l.inReach x c.next = true)
    (hnear : l.inReach (other x) c.next = true → Nearer (fun y => distance (l.acc y).pos c.next) x)
    (hfits : l.fits x ⟨min (l.acc x).pos c.next, max (l.acc x).pos c.next⟩ = true) :
    ∃ m q, l.settle g = { m with notes := .none } ∧ m.req? r.tag = some q ∧ q.state = .moving
      ∧ OrderSent g x (scanOrder r c) (.scan c.next) (l.acc x).counter m := by
  have hcolumn (y : AccId) : l.jobColumn y r = c.next := by simp [jobColumn, hcursor]
  have hchosen : l.chooseAccessor g r = some x := by
    refine h.chooseAccessor g (by rw [h.audit_dispatchable g hkind hcursor hsource, hreach]) fun hother => ?_
    rw [h.audit_dispatchable g hkind hcursor hsource] at hother
    simp only [jobDistance_of_idle (h.idle _).2.1, hcolumn]
    exact hnear hother
  let moving := l.setReqState g r.tag .moving
  let given := (moving.updAcc x fun v => { v with current := some (scanOrder r c) }).updateLock
  have hrail : ∀ y, moving.acc y = l.acc y := acc_of_rail (setReqState_rail g r.tag .moving l)
  have hcur : given.acc x = { l.acc x with current := some (scanOrder r c) } := by
    simp only [given, updateLock_acc, acc_updAcc_self, hrail]
  have hspan : given.fits x (given.orderSpan x (scanOrder r c)) = true := by
    rw [orderSpan_scan, hcur, fits_of_other (l := l) (by simp only [given, updateLock_acc, acc_updAcc_other, hrail])]
    exact hfits
  have honly : OrdersOnly moving (given.takeUp g x) :=
    ((updAcc_only x _ moving).trans (updateLock_only _)).trans (takeUp_ordersOnly g (by rw [hcur]) hspan)
  have hnotes : (given.takeUp g x).notes = l.notes := honly.notes.trans (setReqState_notes_of_wake g _ _ h.notes)
  have hstage : l.stage g x r = given.takeUp g x :=
    stage_of_prepare g (prepare_audit g x l h.queued hkind hcursor) (by rw [hrail, (h.idle x).2.1])
      (by rw [makeCurrent_scan, hnotes, h.notes]; rfl)
  have hreq := (req?_of_live (congrArg RequestTable.live honly.reqs) r.tag).trans
    (req?_setReqState_self g r.tag .moving l)
  rw [h.req?] at hreq
  have hlive := live_eq_singleton (by rw [honly.reqs, setReqState_live_length, h.live]; rfl) hreq
  refine ⟨_, _, h.settle g hchosen hstage (jobs_eq_nil hlive rfl) hnotes, hreq, rfl, ?_⟩
  have hsent := takeUp_sends g (l := given) (by rw [hcur]) hspan rfl rfl
  rw [hcur] at hsent
  exact hsent

end

/-! ## A fetch -/

/-- The drive can take a mount of the path and the density that the accessor fetches (R50, R96). -/
def CanFetch (l : Lib) (x : AccId) (path density d : Nat) : Prop :=
  d < 16 ∧ (l.drive d).state = .idle ∧ (l.drive d).cleanDue = false ∧ (l.drive d).offPending = false
    ∧ ∃ y c, (l.drive d).defn = some y ∧ y.kind = .automated c ∧ y.confirmed = true ∧ path ∈ y.paths
      ∧ density ∈ y.densities ∧ l.inReach x c = true

theorem mem_fetchDrives_iff (g : Settings) {l : Lib} {x : AccId} {r : Request} {p c d : Nat} (hpath : r.path = some p)
    (hdensity : r.density = some c) (henabled : g.paths.getD p false = true) :
    d ∈ l.fetchDrives g x r ↔ l.CanFetch x p c d := by
  unfold fetchDrives drivesWhere CanFetch
  rw [List.mem_filter, List.mem_range]
  refine and_congr Iff.rfl ?_
  cases hdefn : (l.drive d).defn with
  | none => simp [eligible, hdefn]
  | some y =>
    cases hkind : y.kind with
    | manual => simp [eligible, hdefn, hkind]
    | automated column =>
      rw [List.getD_eq_getElem?_getD] at henabled
      simp [eligible, driveReady, driveCol, defFits, pathEnabled, hdefn, hkind, hpath, hdensity, henabled]
      tauto

/-- Drive choice (R51): a drive that has been IDLE longer than the others. -/
theorem chooseDrive_of_earliest {l : Lib} {ds : List Nat} {d : Nat} (hd : d ∈ ds)
    (hfirst : ∀ e ∈ ds, e ≠ d → l.idleKey d < l.idleKey e) : l.chooseDrive ds = some d := by
  obtain ⟨e, he, hfound, -, hlt⟩ := find?_sortBy (lt := fun a b => lexLt (l.idleKey a) a (l.idleKey b) b)
    (p := fun _ => true) (fun _ _ => lexLt_asymm) (fun _ _ _ => lexLt_false_trans) hd rfl
  have hed : e = d := by
    by_contra hne
    have hbefore : lexLt (l.idleKey d) d (l.idleKey e) e = true := lexLt_eq_true.2 (.inl (hfirst e he hne))
    rw [hbefore] at hlt
    cases hlt
  unfold chooseDrive byIdle
  rw [← hed, ← hfound]
  cases sortBy (fun a b => lexLt (l.idleKey a) a (l.idleKey b) b) ds <;> rfl

/-- The order that fetches a volume from a cell (R72). -/
def fetchOrder (r : Request) (n d : Nat) : Order :=
  { kind := .transfer (.cell n) (some (.drive d)), number := none, serves := some r.tag, progress := .notPicked
    newHome := false }

/-- The records with the drive reserved for the request, and the request in FETCHING (R51, R98). -/
def fetching (g : Settings) (d : Nat) (r : Request) (l : Lib) : Lib :=
  ((l.reserveDrive d r.tag .staged).updReq r.tag fun q => { q with drive := some d }).setReqState g r.tag .fetching

/-- The records with the order that fetches the volume made current (R53, R98). -/
def fetchGiven (g : Settings) (x : AccId) (n d : Nat) (r : Request) (l : Lib) : Lib :=
  (((l.fetching g d r).updAcc x fun v => { v with current := some (fetchOrder r n d) }).updDrive d fun v =>
    { v with state := .reserved .current }).updateLock

theorem prepare_fetch (g : Settings) (x : AccId) {r : Request} {l : Lib} {n d : Nat} (hstate : r.state = .queued)
    (hkind : r.kind = .mount) (hsource : r.source = some (.cell n))
    (hdrive : l.chooseDrive (l.fetchDrives g x r) = some d) :
    l.prepare g x r = (l.fetching g d r, some (fetchOrder r n d)) := by
  unfold prepare
  simp only [hstate, hkind, hsource, hdrive]
  rfl

section
variable (g : Settings) {x : AccId} {n d : Nat} {r : Request} {l : Lib}

theorem fetching_drives : (l.fetching g d r).drives = l.drives.modify d fun v =>
    { v with state := .reserved .staged, serving := some r.tag } := by
  unfold fetching
  rw [setReqState_drives]
  rfl

theorem fetching_acc (y : AccId) : (l.fetching g d r).acc y = l.acc y :=
  acc_of_rail (setReqState_rail g r.tag .fetching _) y

theorem req?_fetching (hr : l.req? r.tag = some r) : (l.fetching g d r).req? r.tag
    = some { r with drive := some d, state := .fetching, stallLeft := none
                    qseq := if ReqState.fetching.keepsQueue then r.qseq else none } := by
  unfold fetching
  rw [req?_setReqState_self, req?_updReq_self _ _ _ (by intro _; rfl)]
  have hkept : (l.reserveDrive d r.tag .staged).req? r.tag = some r := hr
  rw [hkept]
  rfl

/-- The drive's reservation passes to the current order (R53). -/
theorem makeCurrent_fetch (hd : d < l.drives.length) :
    (l.fetching g d r).makeCurrent g x (fetchOrder r n d) = (l.fetchGiven g x n d r).takeUp g x := by
  have hdrive : ((l.fetching g d r).updAcc x fun v => { v with current := some (fetchOrder r n d) }).drive d
      = { l.drive d with state := .reserved .staged, serving := some r.tag } :=
    (drive_of_drives (updAcc_drives _ x _) d).trans (drive_of_modify (fetching_drives g) hd).1
  have hcause : ((l.fetching g d r).updAcc x fun v => { v with current := some (fetchOrder r n d) }).setCauseOf
      (fetchOrder r n d) .current = ((l.fetching g d r).updAcc x fun v =>
        { v with current := some (fetchOrder r n d) }).updDrive d fun v => { v with state := .reserved .current } := by
    have hdest : (fetchOrder r n d).destDrive? = some d := rfl
    unfold setCauseOf
    simp only [hdest, isReserved, hdrive]
    exact if_pos (by simp [fetchOrder])
  unfold fetchGiven
  rw [← hcause]
  rfl

theorem fetchGiven_acc : (l.fetchGiven g x n d r).acc x = { l.acc x with current := some (fetchOrder r n d) } := by
  unfold fetchGiven
  rw [updateLock_acc, acc_of_rail (updDrive_rail _ d _), acc_updAcc_self, fetching_acc]

theorem fetchGiven_other : (l.fetchGiven g x n d r).acc (other x) = l.acc (other x) := by
  unfold fetchGiven
  rw [updateLock_acc, acc_of_rail (updDrive_rail _ d _), acc_updAcc_other, fetching_acc]

theorem fetchGiven_reqs : (l.fetchGiven g x n d r).reqs = (l.fetching g d r).reqs := by
  unfold fetchGiven
  rw [(updateLock_only _).reqs, updDrive_reqs, updAcc_reqs]

theorem fetchGiven_store : (l.fetchGiven g x n d r).store = l.store := by
  unfold fetchGiven fetching
  rw [(updateLock_only _).store, updDrive_store, updAcc_store, setReqState_only]
  rfl

theorem fetchGiven_notes (h : l.notes = { Notes.none with wake := true }) :
    (l.fetchGiven g x n d r).notes = l.notes := by
  unfold fetchGiven fetching
  rw [(updateLock_only _).notes, updDrive_notes, updAcc_notes]
  exact setReqState_notes_of_wake g r.tag .fetching h

theorem fetchGiven_drive (hd : d < l.drives.length) : (l.fetchGiven g x n d r).drive d
    = { l.drive d with state := .reserved .current, serving := some r.tag } := by
  have hdrives : (l.fetchGiven g x n d r).drives = l.drives.modify d fun v =>
      { v with state := .reserved .current, serving := some r.tag } := by
    unfold fetchGiven
    rw [(updateLock_only _).drives, updDrive_drives, updAcc_drives, fetching_drives, List.modify_modify_eq]
    rfl
  exact (drive_of_modify hdrives hd).1

/-- The span of the order reaches from the accessor over the cell to the drive (R104). -/
theorem orderSpan_fetch {column : Nat} (hd : d < l.drives.length) (hcolumn : l.driveCol d = some column) :
    (l.fetchGiven g x n d r).orderSpan x (fetchOrder r n d)
      = ⟨min (min (l.acc x).pos (l.cellCol n)) column, max (max (l.acc x).pos (l.cellCol n)) column⟩ := by
  have hcell : (l.fetchGiven g x n d r).cellCol n = l.cellCol n := by unfold cellCol; rw [fetchGiven_store]
  have hdrive : (l.fetchGiven g x n d r).driveCol d = some column := by
    rw [← hcolumn]
    unfold driveCol
    rw [fetchGiven_drive g hd]
  have hvisited : (l.fetchGiven g x n d r).visited x (fetchOrder r n d) = [l.cellCol n, column] := by
    rw [← hcell, show column = ((l.fetchGiven g x n d r).driveCol d).getD ((l.fetchGiven g x n d r).acc x).pos by
      rw [hdrive]; rfl]
    rfl
  unfold orderSpan
  rw [hvisited, fetchGiven_acc]
  rfl

end

section
variable (g : Settings) {l : Lib} {r : Request} {x : AccId} {n d column p c : Nat}

/-- What the request fetches and for which account (R64, R96). -/
structure Fetch (r : Request) (n p c account : Nat) (s : Serial) : Prop where
  kind : r.kind = .mount
  source : r.source = some (.cell n)
  cursor : r.cursor = none
  path : r.path = some p
  density : r.density = some c
  account : r.account = some account
  cargo : r.cargo = .volume s

/-- The accessor can fetch from the cell at once, as the nearer one, to the drive of the column given, which has been
IDLE longest (R51, R97, R104). -/
structure FetchWay (l : Lib) (x : AccId) (n p c d column : Nat) : Prop where
  drive : l.CanFetch x p c d
  longest : ∀ e, l.CanFetch x p c e → e ≠ d → l.idleKey d < l.idleKey e
  driveAt : l.driveCol d = some column
  drives : l.drives.length = 16
  reach : l.inReach x (l.cellCol n) = true
  near : l.inReach (other x) (l.cellCol n) = true → Nearer (fun y => distance (l.acc y).pos (l.cellCol n)) x
  fits : l.fits x ⟨min (min (l.acc x).pos (l.cellCol n)) column, max (max (l.acc x).pos (l.cellCol n)) column⟩ = true

/-- The account of the one request lets it go where its drive limit is not 0 (R153). -/
theorem AtRest.accountAllows (h : l.AtRest r) {k : Nat} (hr : r.account = some k) {a : Account}
    (ha : l.account? k = some a) (hopen : a.suspended = false) (hlimit : 0 < a.limit) : l.accountAllows r = true := by
  have hheld : l.heldCount k = 0 := by
    unfold heldCount
    simp [h.live, h.queued, ReqState.inHeldSet]
  unfold Lib.accountAllows passesDriveLimit
  simp [hr, ha, hopen, hheld, hlimit]

theorem AtRest.fetch_dispatchable (h : l.AtRest r) {k : Nat} {s : Serial} (hf : Fetch r n p c k s)
    (hdrive : d ∈ l.fetchDrives g x r) (haccount : l.accountAllows r = true)
    (hreach : l.inReach x (l.cellCol n) = true) :
    l.dispatchable g x r = true := by
  have hsome : (l.fetchDrives g x r).isEmpty = false := by
    cases hds : l.fetchDrives g x r with
    | nil => rw [hds] at hdrive; cases hdrive
    | cons _ _ => rfl
  rw [h.dispatchable (by simp [hf.source])]
  simp [jobColumn, hf.cursor, hf.source, placeCol, hreach, kindAllows, h.queued, hf.kind, hsome, haccount, Place.isSlot]

/-- The fetch goes to the accessor chosen and to the drive that has been IDLE longest, and is sent at once (R51, R72,
R97, R98). -/
theorem AtRest.fetch_goes (h : l.AtRest r) {k : Nat} {s : Serial} (hf : Fetch r n p c k s) {a : Account}
    (ha : l.account? k = some a) (hopen : a.suspended = false) (hlimit : 0 < a.limit)
    (henabled : g.paths.getD p false = true) (hway : l.FetchWay x n p c d column) :
    ∃ m q, l.settle g = { m with notes := .none } ∧ m.req? r.tag = some q ∧ q.state = .fetching ∧ q.drive = some d
      ∧ (m.drive d).state = .reserved .current ∧ (m.drive d).serving = some r.tag
      ∧ OrderSent g x (fetchOrder r n d) (.transfer (.cell n) (.drive d) (some s)) (l.acc x).counter m := by
  have hlt : d < l.drives.length := by rw [hway.drives]; exact hway.drive.1
  have hmem (e : Nat) := mem_fetchDrives_iff g (l := l) (x := x) (d := e) hf.path hf.density henabled
  have hdrive : l.chooseDrive (l.fetchDrives g x r) = some d :=
    chooseDrive_of_earliest ((hmem d).2 hway.drive) fun e he => hway.longest e ((hmem e).1 he)
  have hplace (y : AccId) : l.jobColumn y r = l.cellCol n := by simp [jobColumn, hf.cursor, hf.source, placeCol]
  have hchosen : l.chooseAccessor g r = some x := by
    refine h.chooseAccessor g (h.fetch_dispatchable g hf ((hmem d).2 hway.drive)
      (h.accountAllows hf.account ha hopen hlimit) hway.reach) fun hother => ?_
    rw [h.dispatchable (by simp [hf.source]), Bool.and_eq_true, hplace] at hother
    simp only [jobDistance_of_idle (h.idle _).2.1, hplace]
    exact hway.near hother.1
  let given := l.fetchGiven g x n d r
  have hcur : (given.acc x).current = some (fetchOrder r n d) := by simp only [given, fetchGiven_acc]
  have hspan : given.fits x (given.orderSpan x (fetchOrder r n d)) = true := by
    rw [orderSpan_fetch g hlt hway.driveAt, fits_of_other (l := l) (fetchGiven_other g)]
    exact hway.fits
  have honly : OrdersOnly given (given.takeUp g x) := takeUp_ordersOnly g hcur hspan
  have hnotes : (given.takeUp g x).notes = l.notes := honly.notes.trans (fetchGiven_notes g h.notes)
  have hstage : l.stage g x r = given.takeUp g x := by
    rw [← makeCurrent_fetch g hlt]
    exact stage_of_prepare g (prepare_fetch g x h.queued hf.kind hf.source hdrive)
      (by rw [fetching_acc, (h.idle x).2.1]) (by rw [makeCurrent_fetch g hlt, hnotes, h.notes]; rfl)
  have hgiven := (req?_of_live (congrArg RequestTable.live (fetchGiven_reqs g (x := x) (n := n))) r.tag).trans
    (req?_fetching g (d := d) h.req?)
  have hreq := (req?_of_live (congrArg RequestTable.live honly.reqs) r.tag).trans hgiven
  have hlive := live_eq_singleton (by
    rw [honly.reqs, fetchGiven_reqs, fetching, setReqState_live_length]
    simp [reserveDrive, h.live]) hreq
  have hbody : given.orderBody x (fetchOrder r n d) = some (.transfer (.cell n) (.drive d) (some s)) := by
    have hlabel : given.expectedAt (fetchOrder r n d) (.cell n) = some s := by
      simp only [expectedAt, cargoOf, fetchOrder, Option.bind_some, given, hgiven, Option.map_some, Option.getD_some,
        hf.cargo, cargoLabel]
    rw [← hlabel]
    rfl
  have hsent := takeUp_sends g hcur hspan rfl hbody
  rw [show given.acc x = _ from fetchGiven_acc g] at hsent
  have hreserved := (drive_of_drives honly.drives d).trans (fetchGiven_drive g hlt)
  exact ⟨_, _, h.settle g hchosen hstage (jobs_eq_nil hlive rfl) hnotes, hreq, rfl, rfl, by rw [hreserved],
    by rw [hreserved], hsent⟩

end

end Lib

/-! ## Eject, Audit and Clean Drive -/

/-- The field an Eject gives its request (R70). -/
def fillEject (v : Volume) (r : Request) : Request := { r with source := Lib.homeSource v }

/-- The field an Audit gives its request (R70). -/
def fillAudit (first last : Nat) (r : Request) : Request :=
  { r with cursor := some { next := first, first := first, last := last } }

/-- The fields a Clean Drive gives its request (R85). -/
def fillClean (d : Nat) (v : Volume) (r : Request) : Request := { r with drive := some d, source := Lib.homeSource v }

theorem fillEject_fillsKind (v : Volume) : FillsKind (fillEject v) where
  tag _ := rfl
  origin _ := rfl
  arrived _ := rfl
  arrival _ := rfl
  code _ := rfl
  cancelPending _ := rfl
  drive _ := rfl
  state _ := rfl
  stallLeft _ := rfl
  qseq _ := rfl

theorem fillAudit_fillsKind (first last : Nat) : FillsKind (fillAudit first last) where
  tag _ := rfl
  origin _ := rfl
  arrived _ := rfl
  arrival _ := rfl
  code _ := rfl
  cancelPending _ := rfl
  drive _ := rfl
  state _ := rfl
  stallLeft _ := rfl
  qseq _ := rfl

/-- What a READY library asks of a command that creates a request, before the checks of its kind (R65, R67). -/
structure ReadyFor (tag : Nat) (s : State) : Prop where
  ready : s.lib.start.state = .ready
  room : s.lib.hostFull = false
  low : 1 ≤ tag
  high : tag ≤ 32767
  fresh : s.lib.req? tag = none

section
variable {tag : Nat} {s : State}

theorem ReadyFor.admission_checks (h : ReadyFor tag s) (clean : Bool) {cs : List (Bool × Sense × Subject)} (k : Applied)
    (hcs : ∀ c ∈ cs, c.1 = true) :
    admission clean s.set s.lib.begin (checks (tagChecks s.lib.begin tag ++ cs) s.set s.lib.begin k) = k := by
  rw [admission_open clean _ (admits_of_ready clean h.ready) (.inl h.ready) h.room,
    checks_tag s.set k h.low h.high (by exact h.fresh) hcs]

theorem exec_eject {serial : Serial} {v : Volume} {priority : Nat} (hl : s.live) (h : ReadyFor tag s)
    (hserial : serial.valid = true) (hpriority : priority ≤ 3) (hv : s.lib.vol? serial = some v)
    (hfree : v.holder = none) (hhome : v.state = .home) : exec (.eject tag serial priority) s
      = .next (s.after s.set ((s.entered tag .eject (.volume serial) priority (fillEject v)).settle s.set)
        (.good [])) := by
  refine exec_good _ _ s hl rfl _ _ _ ?_
  unfold cmdEject
  rw [h.admission_checks false _ (by simp [hserial, hpriority])]
  simp only [begin_vol?, hv, hfree, hhome, Option.isNone_none, decide_true, checks_pass, checks_nil]
  rfl

theorem exec_audit {first last priority : Nat} (hl : s.live) (h : ReadyFor tag s) (hfirst : first ≤ last)
    (hlast : last < s.lib.columns) (hpriority : priority ≤ 3 ∨ priority = 255) :
    exec (.audit tag first last priority) s = .next (s.after s.set
      ((s.entered tag .audit .none (auditPriority priority) (fillAudit first last)).settle s.set) (.good [])) := by
  have hlast' : last < s.lib.begin.columns := hlast
  refine exec_good _ _ s hl rfl _ _ _ ?_
  unfold cmdAudit
  rw [h.admission_checks false _ (by simp [hfirst, hlast', hpriority])]
  rfl

/-- In READY the new request is QUEUED. -/
theorem State.entered_of_ready (h : s.lib.start.state = .ready) (kind : Kind) (cargo : Cargo) (priority : Nat)
    (fill : Request → Request) : s.entered tag kind cargo priority fill
      = (s.lib.begin.admitReq s.set tag .link kind cargo priority fill).enterQueued s.set tag := by
  unfold State.entered Lib.enterFirst
  rw [(Lib.admitReq_only ..).start, Lib.begin_start, h]
  rfl

theorem State.newcomer_of_ready (h : s.lib.start.state = .ready) (kind : Kind) (cargo : Cargo) (priority : Nat)
    (fill : Request → Request) : s.newcomer tag kind cargo priority fill
      = { s.lib.newRequest s.set tag .link kind cargo priority fill with
          state := .queued, stallLeft := some s.set.timers.stall
          qseq := some (satAdd max32 s.lib.reqs.queueSeq 1) } := by
  unfold State.newcomer Lib.listedFirst
  rw [h]
  rfl

theorem exec_cleanDrive {d priority : Nat} {v : Volume} (hl : s.live) (h : ReadyFor tag s) (hd : d < 16)
    (hpriority : priority ≤ 3) (hauto : s.lib.isAutomated d = true) (hnames : s.lib.cleanNames d = false)
    (hcleaner : s.lib.chooseCleaner = some v) : exec (.cleanDrive tag d priority) s
      = .next (s.after s.set ((s.entered tag .clean (.volume v.serial) priority (fillClean d v)).settle s.set)
        (.good [])) := by
  have hauto' : s.lib.begin.isAutomated d = true := hauto
  have hnames' : s.lib.begin.cleanNames d = false := hnames
  have hcleaner' : s.lib.begin.chooseCleaner = some v := hcleaner
  refine exec_good _ _ s hl rfl _ _ _ ?_
  unfold cmdCleanDrive
  rw [h.admission_checks true _ (by simp [Config.drives, hd, hpriority, hauto', hnames']),
    State.entered_of_ready h.ready]
  simp only [hcleaner']
  rfl

end

/-! ## The dispatcher after an admission -/

theorem AdmitOnly.acc {l m : Lib} (h : AdmitOnly l m) (x : AccId) : m.acc x = l.acc x := Lib.acc_of_rail h.rail x
theorem AdmitOnly.inReach {l m : Lib} (h : AdmitOnly l m) (x : AccId) (c : Nat) : m.inReach x c = l.inReach x c := by
  unfold AdmitOnly at h; rw [h]; rfl
theorem AdmitOnly.canFetch {l m : Lib} (h : AdmitOnly l m) (x : AccId) (p c d : Nat) :
    m.CanFetch x p c d = l.CanFetch x p c d := by
  unfold AdmitOnly at h; rw [h]; rfl
theorem AdmitOnly.cellCol {l m : Lib} (h : AdmitOnly l m) (n : Nat) : m.cellCol n = l.cellCol n := by
  unfold AdmitOnly at h; rw [h]; rfl
theorem AdmitOnly.driveCol {l m : Lib} (h : AdmitOnly l m) (d : Nat) : m.driveCol d = l.driveCol d := by
  unfold AdmitOnly at h; rw [h]; rfl
theorem AdmitOnly.idleKey {l m : Lib} (h : AdmitOnly l m) (d : Nat) : m.idleKey d = l.idleKey d := by
  unfold AdmitOnly at h; rw [h]; rfl
theorem AdmitOnly.account? {l m : Lib} (h : AdmitOnly l m) (n : Nat) : m.account? n = l.account? n := by
  unfold AdmitOnly at h; rw [h]; rfl

theorem AdmitOnly.fetchWay {l m : Lib} (h : AdmitOnly l m) {x : AccId} {n p c d column : Nat}
    (hway : l.FetchWay x n p c d column) : m.FetchWay x n p c d column where
  drive := by rw [h.canFetch]; exact hway.drive
  longest := by simpa only [h.canFetch, h.idleKey] using hway.longest
  driveAt := (h.driveCol d).trans hway.driveAt
  drives := by rw [h.drives]; exact hway.drives
  reach := by rw [h.inReach, h.cellCol]; exact hway.reach
  near := by simpa only [h.inReach, h.cellCol, h.acc] using hway.near
  fits := by rw [Lib.fits_of_other (h.acc (other x)), h.acc, h.cellCol]; exact hway.fits

section
variable {s : State} {tag : Nat} {kind : Kind} {cargo : Cargo} {priority : Nat} {fill : Request → Request}

/-- In READY an admission sends nothing more, and notes a run of the dispatcher. -/
theorem State.entered_quiet (h : ReadyFor tag s) (hfill : FillsKind fill) :
    (s.entered tag kind cargo priority fill).out
      = (s.lib.begin.admitReq s.set tag .link kind cargo priority fill).out
    ∧ (s.entered tag kind cargo priority fill).notes
      = { (s.lib.begin.admitReq s.set tag .link kind cargo priority fill).notes with wake := true } := by
  rw [State.entered_of_ready h.ready]
  refine Lib.enterQueued_quiet s.set (Lib.req?_admitReq_self s.set .link kind cargo priority h.fresh hfill.tag) ?_
  exact congrArg ReqState.inList (hfill.state _)

/-- A library without requests and without orders in hand is at rest with the one admitted. -/
theorem State.entered_atRest (h : ReadyFor tag s) (hfill : FillsKind fill) (hinterlock : s.lib.rail.interlock = false)
    (hidle : ∀ y, (s.lib.acc y).state = .idle ∧ (s.lib.acc y).current = none ∧ (s.lib.acc y).staged = none)
    (hlive : s.lib.reqs.live = [])
    (hnotes : (s.lib.begin.admitReq s.set tag .link kind cargo priority fill).notes = .none) :
    (s.entered tag kind cargo priority fill).AtRest (s.newcomer tag kind cargo priority fill) where
  ready := by rw [State.entered_only.start]; exact h.ready
  interlock := by rw [State.entered_only.rail]; exact hinterlock
  idle y := by rw [State.entered_only.acc]; exact hidle y
  live := Lib.live_eq_singleton (by rw [State.entered_live_length, hlive]; rfl)
    (State.req?_entered_self h.fresh hfill.tag)
  queued := by rw [State.newcomer_of_ready h.ready]
  notes := by rw [(State.entered_quiet h hfill).2, hnotes]

theorem State.newcomer_tag (h : ReadyFor tag s) (hfill : FillsKind fill) :
    (s.newcomer tag kind cargo priority fill).tag = tag := by
  rw [State.newcomer_of_ready h.ready]
  exact hfill.tag _

end

/-- With the interlock flag set an Audit is admitted, and nothing is staged or sent (R96). -/
theorem exec_audit_interlock {tag first last : Nat} {s : State} (hl : s.live) (h : ReadyFor tag s)
    (hlock : s.lib.rail.interlock = true) (hfirst : first ≤ last) (hlast : last < s.lib.columns) :
    exec (.audit tag first last 255) s = .next (s.after s.set
      { s.entered tag .audit .none (auditPriority 255) (fillAudit first last) with notes := .none } (.good [])) := by
  have hnotes : (s.entered tag .audit .none (auditPriority 255) (fillAudit first last)).notes
      = { Notes.none with wake := true } := (State.entered_quiet h (fillAudit_fillsKind first last)).2
  rw [exec_audit hl h hfirst hlast (.inr rfl)]
  refine congrArg (fun l => Host.Outcome.next (s.after s.set l (.good []))) ?_
  exact Lib.settle_interlock s.set _ (by rw [State.entered_only.rail]; exact hlock)
    (by rw [hnotes]; exact ⟨rfl, rfl, rfl⟩)
    (by rw [hnotes]; rfl)

/-- No request is live, and both accessors are IDLE without an order in hand. -/
structure State.Resting (s : State) : Prop where
  live : s.lib.reqs.live = []
  interlock : s.lib.rail.interlock = false
  idle : ∀ y, (s.lib.acc y).state = .idle ∧ (s.lib.acc y).current = none ∧ (s.lib.acc y).staged = none

section
variable {tag : Nat} {s : State} (hl : s.live) (h : ReadyFor tag s) (hrest : s.Resting)
include hl h hrest

/-- In a library at rest an Audit sends the nearer accessor to its first column (R86, R97). -/
theorem exec_audit_goes {x : AccId} {first last : Nat} (hfirst : first ≤ last) (hlast : last < s.lib.columns)
    (hreach : s.lib.inReach x first = true)
    (hnear : s.lib.inReach (other x) first = true → Lib.Nearer (fun y => Lib.distance (s.lib.acc y).pos first) x)
    (hfits : s.lib.fits x ⟨min (s.lib.acc x).pos first, max (s.lib.acc x).pos first⟩ = true) :
    ∃ m q, exec (.audit tag first last 255) s = .next (s.after s.set { m with notes := .none } (.good []))
      ∧ m.req? tag = some q ∧ q.state = .moving
      ∧ OrderSent s.set x { kind := .scan first, number := none, serves := some tag, progress := .notPicked
                            newHome := false } (.scan first) (s.lib.acc x).counter m := by
  have hfill := fillAudit_fillsKind first last
  have honly := State.entered_only (s := s) (tag := tag) (kind := .audit) (cargo := .none)
    (priority := auditPriority 255) (fill := fillAudit first last)
  have hat := State.entered_atRest (kind := .audit) (cargo := .none) (priority := auditPriority 255) h hfill
    hrest.interlock hrest.idle hrest.live rfl
  have hnew := State.newcomer_of_ready (tag := tag) h.ready .audit .none (auditPriority 255) (fillAudit first last)
  have htag : (s.newcomer tag .audit .none (auditPriority 255) (fillAudit first last)).tag = tag :=
    State.newcomer_tag h hfill
  obtain ⟨m, q, hsettle, hq, hstate, hsent⟩ := hat.audit_goes s.set (x := x)
    (c := { next := first, first := first, last := last }) (by rw [hnew]; rfl) (by rw [hnew]; rfl) (by rw [hnew]; rfl)
    ((honly.inReach x first).trans hreach) (fun hother => by
      rw [honly.inReach] at hother
      simp only [honly.acc]
      exact hnear hother) (by
      rw [Lib.fits_of_other (honly.acc (other x)), honly.acc]
      exact hfits)
  unfold Lib.scanOrder at hsent
  rw [htag] at hq hsent
  rw [honly.acc] at hsent
  exact ⟨m, q, by rw [exec_audit hl h hfirst hlast (.inr rfl), hsettle], hq, hstate, hsent⟩

end

section
variable {f : MountBlock} {a : Account} {v : Volume} {s : State} {d n column : Nat}

/-- A drive that can fetch the volume serves its Mount (R50, R68). -/
theorem Lib.CanFetch.serves {l : Lib} {x : AccId} {p c : Nat} (hd : l.CanFetch x p c d) (hlen : l.drives.length = 16) :
    ∃ w ∈ l.drives, ∃ y, w.defn = some y ∧ p ∈ y.paths ∧ c ∈ y.densities ∧ y.kind ≠ .manual := by
  obtain ⟨hlt, -, -, -, y, c, hdefn, hkind, -, hpath, hdensity, -⟩ := hd
  rw [← hlen] at hlt
  have hdrive : l.drive d = l.drives[d] := by simp [Lib.drive, hlt]
  exact ⟨l.drives[d], List.getElem_mem hlt, y, hdrive ▸ hdefn, hpath, hdensity, by simp [hkind]⟩

/-- In a library at rest a Mount of a volume in a cell sends the accessor for it, to the drive that has been IDLE
longest (R51, R72, R97). -/
theorem exec_mount_goes (hl : s.live) (hopen : MountOpen f a v s) (hready : s.lib.start.state = .ready)
    (hrest : s.Resting) (hlimit : 0 < a.limit) (hfree : v.holder = none)
    (hscratch : f.serial ∉ s.lib.cat.scratch) (hcls : ∀ u, v.cls ≠ .cleaner u) (hhome : v.state = .home)
    (hcell : v.homeCell = some n) (hring : f.access = 1 ∨ v.ring = true)
    (henabled : s.set.paths.getD f.path false = true) {x : AccId}
    (hway : s.lib.FetchWay x n f.path v.density d column) :
    ∃ m q, exec (.mount f) s = .next (s.after s.set { m with notes := .none } (.good []))
      ∧ m.req? f.tag = some q ∧ q.state = .fetching ∧ q.drive = some d
      ∧ (m.drive d).state = .reserved .current ∧ (m.drive d).serving = some f.tag
      ∧ OrderSent s.set x { kind := .transfer (.cell n) (some (.drive d)), number := none, serves := some f.tag
                            progress := .notPicked, newHome := false }
        (.transfer (.cell n) (.drive d) (some f.serial)) (s.lib.acc x).counter m := by
  have h : ReadyFor f.tag s := ⟨hready, hopen.room, hopen.low, hopen.high, hopen.fresh⟩
  have hfill := fillMount_fillsKind f v
  have honly := State.entered_only (s := s) (tag := f.tag) (kind := .mount) (cargo := .volume f.serial)
    (priority := f.priority) (fill := fillMount f v)
  have hexec := exec_mount hl hopen hfree hcls (.inl hhome) hring
    ((hway.drive.serves hway.drives).imp fun w ⟨hw, y, hdefn, hpath, hdensity, hkind⟩ =>
      ⟨hw, y, hdefn, hpath, hdensity, .inr hkind⟩)
  rw [admitMount_home hhome] at hexec
  have hnotes : (s.lib.begin.admitReq s.set f.tag .link .mount (.volume f.serial) f.priority (fillMount f v)).notes
      = .none := Lib.takeHold_notes s.set f.tag (by exact hopen.found) hscratch
  have hat := State.entered_atRest h hfill hrest.interlock hrest.idle hrest.live hnotes
  have htag : (s.newcomer f.tag .mount (.volume f.serial) f.priority (fillMount f v)).tag = f.tag :=
    State.newcomer_tag h hfill
  have hfetch : Lib.Fetch (s.newcomer f.tag .mount (.volume f.serial) f.priority (fillMount f v)) n f.path v.density
      f.account f.serial := by
    rw [State.newcomer_of_ready h.ready]
    exact ⟨rfl, (if_pos hhome).trans (congrArg (Option.map Place.cell) hcell), rfl, rfl, rfl, rfl, rfl⟩
  have hbegin : s.lib.begin.FetchWay x n f.path v.density d column :=
    ⟨hway.drive, hway.longest, hway.driveAt, hway.drives, hway.reach, hway.near, hway.fits⟩
  obtain ⟨m, q, hsettle, hq, hstate, hdrive, hreserved, hserving, hsent⟩ := hat.fetch_goes s.set hfetch
    ((honly.account? _).trans hopen.account) hopen.open_ hlimit henabled (honly.fetchWay hbegin)
  unfold Lib.fetchOrder at hsent
  rw [htag] at hq hserving hsent
  rw [honly.acc] at hsent
  exact ⟨m, q, by rw [hexec, hsettle], hq, hstate, hdrive, hreserved, hserving, hsent⟩

end

/-- Settles O53: each command fills the entry with its fields; the dispatcher then stages nothing under the interlock,
and at rest sends the one order of the request. -/
theorem workAdmitted : Obligations.WorkAdmitted := by
  unfold Obligations.WorkAdmitted
  intro tag s hl hready hroom hlo hhi hnew listed
  have h : ReadyFor tag s := ⟨hready, hroom, hlo, hhi, hnew⟩
  refine ⟨fun serial v priority hserial hpriority hv hfree hhome => ?_,
    fun first last priority hfirst hlast hpriority => ?_,
    fun d priority v hd hpriority hauto hnames hcleaner hv => ?_, fun first last hlock hfirst hlast => ?_, ?_⟩
  · refine State.admits_of_entered (exec_eject hl h hserial hpriority hv hfree hhome) hnew (fillEject_fillsKind v) ?_ ?_
    · rintro x ⟨rfl⟩
      exact ⟨v, hv, hfree⟩
    · rw [State.newcomer_of_ready hready]
      exact ⟨rfl, rfl, rfl, rfl, rfl, rfl⟩
  · refine State.admits_of_entered (exec_audit hl h hfirst hlast hpriority) hnew (fillAudit_fillsKind first last)
      (fun x hx => by cases hx) ?_
    rw [State.newcomer_of_ready hready]
    exact ⟨rfl, rfl, rfl, rfl, rfl⟩
  · refine ⟨_, _, exec_cleanDrive hl h hd hpriority hauto hnames hcleaner,
      State.req?_entered_self hnew (by intro _; rfl), ?_⟩
    rw [State.newcomer_of_ready hready]
    exact ⟨rfl, rfl, rfl, ⟨rfl, rfl⟩, State.holder_entered hv (Lib.chooseCleaner_holder hcleaner),
      State.entered_only.drives, State.entered_only.rail⟩
  · refine ⟨_, _, exec_audit_interlock hl h hlock hfirst hlast,
      State.req?_entered_self hnew (fillAudit_fillsKind first last).tag, ?_, State.entered_only.rail,
      (State.entered_quiet h (fillAudit_fillsKind first last)).1⟩
    rw [State.newcomer_of_ready hready]
  · intro hlive hinterlock hidle next goes far
    have hrest : s.Resting := ⟨hlive, hinterlock, hidle⟩
    refine ⟨fun x first last hfirst hlast hreach hnear hfits => ?_, ?_⟩
    · have hnearer : s.lib.inReach (other x) first = true → Lib.Nearer (fun y => far y first) x := by
        cases x <;> exact hnear
      obtain ⟨m, q, hexec, hq, hstate, hsent⟩ := exec_audit_goes hl h hrest hfirst hlast hreach hnearer hfits
      exact ⟨_, q, hexec, hq, hstate, hsent.state, hsent.timer, hsent.current, hsent.order⟩
    · rintro f a v owner expiry d n column rfl hfields ha hopen hquota hlimit hv hfree hcls hscratch hhome hcell hring
        henabled could hd hlongest hcolumn hlen hreach hnear hfits
      obtain ⟨m, q, hexec, hq, hstate, hdrive, hreserved, hserving, hsent⟩ := exec_mount_goes hl
        ⟨.inl hready, hroom, ha, hopen, hquota, hlo, hhi, hnew, hfields, hv⟩ hready hrest hlimit hfree hscratch
        (by rw [hcls]; exact fun u hu => by cases hu) hhome hcell hring henabled
        ⟨hd, hlongest, hcolumn, hlen, hreach, hnear, hfits⟩
      exact ⟨_, q, hexec, hq, ⟨hstate, hdrive, hreserved, hserving⟩, hsent.state, hsent.timer, hsent.current,
        hsent.order⟩

end Sys2Proof.Machine
end

section
/-! PICKED and PICK-EMPTY at a cell for the order in hand (R102, R109, R110). -/

namespace Sys2Proof.Machine

namespace Lib

/-! ## Lookups after a change of an accessor -/

section
variable (x : AccId) (f : Accessor → Accessor) (l : Lib)

@[simp] theorem updAcc_vol? (s : Serial) : (l.updAcc x f).vol? s = l.vol? s := by cases x <;> rfl
@[simp] theorem updAcc_req? (t : Nat) : (l.updAcc x f).req? t = l.req? t := by cases x <;> rfl
@[simp] theorem updAcc_cell (n : Nat) : (l.updAcc x f).cell n = l.cell n := by cases x <;> rfl

@[simp] theorem setPos_place (c : Nat) : (l.setPos x c).place = l.place := updAcc_place ..
@[simp] theorem setPos_drives (c : Nat) : (l.setPos x c).drives = l.drives := updAcc_drives ..
@[simp] theorem setPos_reqs (c : Nat) : (l.setPos x c).reqs = l.reqs := updAcc_reqs ..
@[simp] theorem setPos_cat (c : Nat) : (l.setPos x c).cat = l.cat := updAcc_cat ..

@[simp] theorem updAcc_updAcc (f' : Accessor → Accessor) :
    (l.updAcc x f).updAcc x f' = l.updAcc x fun v => f' (f v) := by cases x <;> rfl

end

theorem cell_of_place {l m : Lib} (h : m.place = l.place) (n : Nat) : m.cell n = l.cell n := by
  unfold cell; rw [h]

/-- A cell that is not read as DISABLED lies in the map (R26). -/
theorem lt_of_cell {l : Lib} {n : Nat} (h : l.cell n ≠ .disabled) : n < l.place.cells.length := by
  by_contra hn
  exact h (by simp [cell, List.getD_eq_getElem?_getD, List.getElem?_eq_none (not_lt.1 hn)])

theorem cargoOf_of_req? {l : Lib} {t : Nat} {r : Request} (hr : l.req? t = some r) : l.cargoOf (some t) = r.cargo := by
  simp [cargoOf, hr]

/-! ## Which report is taken -/

/-- A report that names another number than the order in hand is stale (R102). -/
theorem taken?_stale {l : Lib} {x : AccId} {n num : Nat} {o : Order} (hcur : (l.acc x).current = some o)
    (hnum : o.number = some num) (hn : n ≠ num) : l.taken? x n = none := by
  simp [taken?, hcur, hnum, Ne.symm hn]

section
variable (g : Settings) {x : AccId} {n : Nat} {l : Lib}

theorem pickedReport_stale (p : Place) (label : Option Serial) (h : l.taken? x n = none) :
    l.pickedReport g x n p label = l := by
  simp [pickedReport, h]

theorem pickEmptyReport_stale (p : Place) (h : l.taken? x n = none) : l.pickEmptyReport g x n p = l := by
  simp [pickEmptyReport, h]

variable {o : Order} {c : Nat} {dest : Option Place}

theorem pickedReport_cell (label : Option Serial) (htaken : l.taken? x n = some o)
    (hkind : o.kind = .transfer (.cell c) dest) (hprogress : o.progress = .notPicked) :
    l.pickedReport g x n (.cell c) label = (l.setPos x (l.cellCol c)).pickedCell g x o c (normLabel label) := by
  simp [pickedReport, htaken, hkind, hprogress, placeCol]

theorem pickEmptyReport_cell (htaken : l.taken? x n = some o) (hkind : o.kind = .transfer (.cell c) dest)
    (hprogress : o.progress = .notPicked) :
    l.pickEmptyReport g x n (.cell c) = (l.setPos x (l.cellCol c)).emptyCell g x o c := by
  simp [pickEmptyReport, htaken, hkind, hprogress, placeCol]

end

/-! ## A pick that agrees with the records -/

/-- The volume of a cell is taken up by an accessor: its cell is AWAITED, and it is IN-TRANSIT (R4, R28). -/
def takenUp (g : Settings) (x : AccId) (s : Serial) (n : Nat) (l : Lib) : Lib :=
  (l.setCell n (.awaited s)).moveVol g s (.inTransit x)

section
variable (g : Settings) (x : AccId) {s : Serial} {n : Nat} {l : Lib}

theorem takenUp_only : PlaceOnly l (l.takenUp g x s n) :=
  (setCell_only n _ l).trans (moveVol_only g s _ _).toPlace

theorem vol?_takenUp {v : Volume} (hv : l.vol? s = some v) :
    (l.takenUp g x s n).vol? s = some { v with state := .inTransit x } := by
  unfold takenUp moveVol
  rw [vol?_changeVol_self _ _ _ _ (by intro _; rfl), vol?_of_vols (congrArg Catalogue.vols (setCell_cat n _ l)), hv]
  rfl

theorem cell_takenUp (hn : n < l.place.cells.length) : (l.takenUp g x s n).cell n = .awaited s := by
  unfold takenUp
  rw [cell_of_place (moveVol_place ..), cell_setCell_self _ _ _ hn]

theorem pickDone_eq (l : Lib) : l.pickDone g x = l.updAcc x fun v =>
    { v with current := v.current.map fun o => { o with progress := .picked }
             timer := if v.state = .moving then some g.timers.step else v.timer } := by
  cases x <;> rfl

theorem pickedCell_of_match {o : Order} {t : Nat} {r : Request} (hserves : o.serves = some t)
    (hr : l.req? t = some r) (hcargo : r.cargo = .volume s) (hcell : l.cell n = .filled s) :
    l.pickedCell g x o n (some s) = (l.takenUp g x s n).pickDone g x := by
  unfold pickedCell
  rw [hserves, cargoOf_of_req? hr, hcargo]
  simp [hcell, takenUp]

end

/-! ## A pick that finds another reel, or none -/

/-- The volume of a cell is lost at its pick, its cell as the pick has found it; the request that the pick was for
ends VOLUME-MISSING (R109, R110). -/
def lostAtPick (g : Settings) (t : Nat) (s : Serial) (found : Cell) (l : Lib) : Lib :=
  (l.declareMissing g s found).complete g t .volumeMissing

/-- The request, which the host made and which has not ended, carries the volume. -/
structure ReelFor (l : Lib) (t : Nat) (s : Serial) (r : Request) (v : Volume) : Prop where
  req : l.req? t = some r
  cargo : r.cargo = .volume s
  origin : r.origin = .link
  code : r.code = none
  live : r.state ≠ .done
  vol : l.vol? s = some v

/-- The request carries the volume, and the records give the volume its home in the cell. -/
structure PickFor (l : Lib) (t : Nat) (s : Serial) (n : Nat) (r : Request) (v : Volume) : Prop
    extends ReelFor l t s r v where
  state : v.state = .home
  home : v.homeCell = some n
  cell : l.cell n = .filled s

section
variable (g : Settings) {t n : Nat} {s : Serial} {r : Request} {v : Volume} {l : Lib}

theorem ReelFor.updAcc (h : ReelFor l t s r v) (x : AccId) (f : Accessor → Accessor) :
    ReelFor (l.updAcc x f) t s r v :=
  { h with req := (updAcc_req? x f l t).trans h.req, vol := (updAcc_vol? x f l s).trans h.vol }

theorem ReelFor.setPos (h : ReelFor l t s r v) (x : AccId) (column : Nat) : ReelFor (l.setPos x column) t s r v :=
  h.updAcc x _

theorem PickFor.updAcc (h : PickFor l t s n r v) (x : AccId) (f : Accessor → Accessor) :
    PickFor (l.updAcc x f) t s n r v :=
  { h.toReelFor.updAcc x f, h with cell := (updAcc_cell x f l n).trans h.cell }

theorem PickFor.lt (h : PickFor l t s n r v) : n < l.place.cells.length :=
  lt_of_cell (by rw [h.cell]; exact fun hc => by cases hc)

/-- The request ends with a code that is its first, whatever the operation before its end has done to the records
other than the requests (R88, R89). -/
theorem ReelFor.req?_complete (h : ReelFor l t s r v) {m : Lib} (hm : m.reqs = l.reqs) (c : Code) :
    ∃ q, (m.complete g t c).req? t = some q ∧ q.state = .done ∧ q.code = some c := by
  have hr : m.req? t = some r := (req?_of_live (congrArg RequestTable.live hm) t).trans h.req
  exact ⟨_, req?_complete_self g t c m r hr h.live h.origin, rfl, by rw [h.code]; rfl⟩

theorem PickFor.declared_cell (h : PickFor l t s n r v) (found : Cell) : (l.declareMissing g s found).cell n = found :=
  cell_declareMissing_home g s found l v n h.vol (by rw [h.state]; decide) h.home h.lt

theorem PickFor.lost_vol? (h : PickFor l t s n r v) (found : Cell) :
    ∃ w, (l.lostAtPick g t s found).vol? s = some w ∧ w.state = .missing ∧ w.homeCell = none := by
  obtain ⟨f, hf⟩ := vol?_complete g t .volumeMissing s (l.declareMissing g s found)
  rw [vol?_declareMissing_self g s found l v h.vol (by rw [h.state]; decide)] at hf
  exact ⟨_, hf, rfl, rfl⟩

theorem PickFor.lost_cell (h : PickFor l t s n r v) {found : Cell} (hfound : found ≠ .empty (some t)) :
    (l.lostAtPick g t s found).cell n = found := by
  unfold lostAtPick
  rw [cell_complete g t n _ _ (by rwa [h.declared_cell]), h.declared_cell]

theorem PickFor.lost_req? (h : PickFor l t s n r v) (found : Cell) :
    ∃ q, (l.lostAtPick g t s found).req? t = some q ∧ q.state = .done ∧ q.code = some .volumeMissing :=
  h.req?_complete g (declareMissing_reqs g s found l) .volumeMissing

variable {x : AccId} {o : Order}

theorem PickFor.pickedCell_of_other (h : PickFor l t s n r v) (hserves : o.serves = some t) {label : Option Serial}
    (hlabel : label ≠ some s) : l.pickedCell g x o n label = (l.lostAtPick g t s .foreign).endOrder g x := by
  unfold pickedCell
  rw [hserves, cargoOf_of_req? h.req, h.cargo]
  simp [hlabel, h.declared_cell g .foreign, finish, lostAtPick]

theorem PickFor.emptyCell_eq (h : PickFor l t s n r v) (hserves : o.serves = some t) :
    l.emptyCell g x o n = (l.lostAtPick g t s (.empty none)).endOrder g x := by
  unfold emptyCell
  rw [hserves, cargoOf_of_req? h.req, h.cargo]
  simp [h.declared_cell g (.empty none), finish, lostAtPick]

end

end Lib

/-- Settles O57: the volume is taken up, or lost with its request; a stale report changes nothing. -/
theorem pickReportsAtCell : Obligations.PickReportsAtCell := by
  unfold Obligations.PickReportsAtCell
  intro x num cell tag dest serial o r v s hl hcur hnum hkind hprogress hserves hr hcargo horigin hcode hlive hv
    hserial hhome hhomeCell hcell
  have htaken := Lib.taken?_current hcur hnum
  have hfor : (s.found.setPos x (s.found.cellCol cell)).PickFor tag serial cell r v :=
    Lib.PickFor.updAcc ⟨⟨hr, hcargo, horigin, hcode, hlive, hv⟩, hhome, hhomeCell, hcell⟩ x _
  refine ⟨?_, fun label hlabel => ?_, ?_, fun n label hn => ?_⟩
  · have hlabel : normLabel (some serial) = some serial := by simp [normLabel, hserial]
    refine ⟨_, exec_event _ _ s hl rfl _ (Lib.pickedReport_cell s.set _ htaken hkind hprogress), ?_⟩
    rw [hlabel, Lib.pickedCell_of_match s.set x hserves hfor.req hcargo hfor.cell, Lib.pickDone_eq]
    have honly := Lib.takenUp_only s.set x (s := serial) (n := cell) (l := s.found.setPos x (s.found.cellCol cell))
    have hacc := Lib.acc_of_rail honly.rail x
    refine ⟨⟨_, (Lib.updAcc_vol? ..).trans (Lib.vol?_takenUp s.set x hfor.vol), rfl, hhomeCell⟩,
      (Lib.updAcc_cell ..).trans (Lib.cell_takenUp s.set x hfor.lt), ?_, ?_, ?_, ?_⟩
    · rw [Lib.acc_updAcc_self, hacc]
      simp [Lib.setPos, hcur]
    · rw [Lib.acc_updAcc_self, hacc]
      simp [Lib.setPos]
    · rw [Lib.updAcc_drives, honly.drives, Lib.setPos_drives]
    · rw [Lib.updAcc_reqs, honly.reqs, Lib.setPos_reqs]
  · obtain ⟨q, hdone⟩ := hfor.lost_req? s.set .foreign
    refine ⟨_, q, ?_, hfor.lost_vol? s.set .foreign, hfor.lost_cell s.set (by simp), hdone⟩
    rw [← hfor.pickedCell_of_other s.set hserves hlabel]
    exact exec_event _ _ s hl rfl _ (Lib.pickedReport_cell s.set _ htaken hkind hprogress)
  · obtain ⟨q, hdone⟩ := hfor.lost_req? s.set (.empty none)
    refine ⟨_, q, ?_, hfor.lost_vol? s.set (.empty none), hfor.lost_cell s.set (by simp), hdone⟩
    rw [← hfor.emptyCell_eq s.set hserves]
    exact exec_event _ _ s hl rfl _ (Lib.pickEmptyReport_cell s.set htaken hkind hprogress)
  · have hstale := Lib.taken?_stale hcur hnum hn
    exact ⟨exec_event_quiet _ _ s hl rfl _ (Lib.pickedReport_stale s.set _ label hstale) (found_notes s),
      exec_event_quiet _ _ s hl rfl _ (Lib.pickEmptyReport_stale s.set _ hstale) (found_notes s)⟩

end Sys2Proof.Machine
end

section
/-! PLACED and PLACE-BLOCKED at drives and cells for the order in hand (R53, R111, R112). -/

namespace Sys2Proof.Machine

/-! ## A report of the place step -/

/-- An accessor whose place step is blocked at a column: its timer stops (R108, R112). -/
def Accessor.blockedAt (column : Nat) (v : Accessor) : Accessor :=
  { v with pos := column, current := v.current.map fun o => { o with progress := .blocked }, timer := none }

namespace Lib

section
variable (g : Settings) {x : AccId} {n : Nat} {l : Lib} {o : Order} {source : Place}

theorem placedReport_cell {c : Nat} (htaken : l.taken? x n = some o)
    (hkind : o.kind = .transfer source (some (.cell c))) (hprogress : o.progress = .picked) :
    l.placedReport g x n (.cell c) = ((l.setPos x (l.cellCol c)).placedCell g o c).endOrder g x := by
  simp [placedReport, htaken, hkind, Order.carries, hprogress, placeCol]

theorem placedReport_drive {d : Nat} (htaken : l.taken? x n = some o)
    (hkind : o.kind = .transfer source (some (.drive d))) (hprogress : o.progress = .picked) :
    l.placedReport g x n (.drive d)
      = ((l.setPos x (l.placeCol x (.drive d))).placedDrive g o d).endOrder g x := by
  simp [placedReport, htaken, hkind, Order.carries, hprogress]

theorem blockedAt_eq (x : AccId) (column : Nat) (l : Lib) :
    (((l.setPos x column).setProgress x .blocked).updAcc x fun v => { v with timer := none })
      = l.updAcc x (Accessor.blockedAt column) := by
  cases x <;> rfl

theorem placeBlockedReport_cell {c : Nat} (htaken : l.taken? x n = some o)
    (hkind : o.kind = .transfer source (some (.cell c))) (hprogress : o.progress = .picked) :
    l.placeBlockedReport g x n (.cell c) = (l.updAcc x (Accessor.blockedAt (l.cellCol c))).blockedCell g x o c := by
  simp [placeBlockedReport, htaken, hkind, Order.carries, hprogress, placeCol, blockedAt_eq]

theorem placeBlockedReport_drive {d : Nat} (htaken : l.taken? x n = some o)
    (hkind : o.kind = .transfer source (some (.drive d))) (hprogress : o.progress = .picked) :
    l.placeBlockedReport g x n (.drive d)
      = (l.updAcc x (Accessor.blockedAt (l.placeCol x (.drive d)))).blockedDrive g x o d := by
  simp [placeBlockedReport, htaken, hkind, Order.carries, hprogress, blockedAt_eq]

end

/-! ## PLACED at a cell -/

/-- A volume put into a cell is HOME there (R4, R28). -/
def putHome (g : Settings) (s : Serial) (c : Nat) (l : Lib) : Lib :=
  (l.setCell c (.filled s)).changeVol g s fun v => { v with state := .home, homeCell := some c }

section
variable (g : Settings) {t c : Nat} {s : Serial} {r : Request} {v : Volume} {l : Lib}

theorem putHome_only : PlaceOnly l (l.putHome g s c) := (setCell_only c _ l).trans (changeVol_only g s _ _).toPlace

theorem vol?_putHome (hv : l.vol? s = some v) :
    (l.putHome g s c).vol? s = some { v with state := .home, homeCell := some c } := by
  unfold putHome
  rw [vol?_changeVol_self _ _ _ _ (by intro _; rfl), vol?_of_vols (congrArg Catalogue.vols (setCell_cat c _ l)), hv]
  rfl

theorem cell_putHome (hc : c < l.place.cells.length) : (l.putHome g s c).cell c = .filled s := by
  unfold putHome
  rw [cell_of_place (changeVol_place ..), cell_setCell_self _ _ _ hc]

theorem ReelFor.placedCell_eq (h : ReelFor l t s r v) {o : Order} (hserves : o.serves = some t) :
    l.placedCell g o c = (l.putHome g s c).complete g t .ok := by
  unfold placedCell
  rw [hserves, cargoOf_of_req? h.req, h.cargo]
  rfl

theorem ReelFor.placedCell_vol? (h : ReelFor l t s r v) :
    ∃ w, ((l.putHome g s c).complete g t .ok).vol? s = some w ∧ w.state = .home ∧ w.homeCell = some c := by
  obtain ⟨f, hf⟩ := vol?_complete g t .ok s (l.putHome g s c)
  rw [vol?_putHome g h.vol] at hf
  exact ⟨_, hf, rfl, rfl⟩

theorem placedCell_cell (hc : c < l.place.cells.length) :
    ((l.putHome g s c).complete g t .ok).cell c = .filled s := by
  rw [cell_complete g t c _ _ (by rw [cell_putHome g hc]; simp), cell_putHome g hc]

end

end Lib

/-! ## PLACED at a drive -/

/-- A drive in which a reel has been placed: its threading limit runs (R53). -/
def Drive.threads (g : Settings) (s : Serial) (v : Drive) : Drive :=
  { v with reel := .recorded s, state := .threading, threadLeft := some g.timers.threading }

namespace Lib

/-- The volume of a mount is placed at a drive: it is ON-DRIVE there, and the drive and the request are THREADING. -/
def threadAt (g : Settings) (s : Serial) (t d : Nat) (l : Lib) : Lib :=
  ((l.moveVol g s (.onDrive d)).updDrive d (Drive.threads g s)).setReqState g t .threading

section
variable (g : Settings) {t d : Nat} {s : Serial} {r : Request} {v : Volume} {l : Lib}

theorem ReelFor.placedDrive_eq (h : ReelFor l t s r v) {o : Order} (hserves : o.serves = some t)
    (hkind : r.kind ≠ .clean) : l.placedDrive g o d = l.threadAt g s t d := by
  unfold placedDrive
  simp only [hserves, Option.bind_some, h.req, Request.serial?, h.cargo, hkind, if_false, updDrive_updDrive,
    tag_of_req? h.req]
  rfl

theorem threadAt_drives : (l.threadAt g s t d).drives = l.drives.modify d (Drive.threads g s) := by
  unfold threadAt
  rw [setReqState_drives, updDrive_drives, moveVol_drives]

theorem threadAt_place : (l.threadAt g s t d).place = l.place := by
  unfold threadAt
  rw [setReqState_place, updDrive_place, moveVol_place]

theorem ReelFor.threadAt_vol? (h : ReelFor l t s r v) :
    (l.threadAt g s t d).vol? s = some { v with state := .onDrive d } := by
  have hcat : (l.threadAt g s t d).cat = (l.moveVol g s (.onDrive d)).cat := by
    unfold threadAt; rw [setReqState_cat, updDrive_cat]
  rw [vol?_of_vols (congrArg Catalogue.vols hcat)]
  unfold moveVol
  rw [vol?_changeVol_self _ _ _ _ (by intro _; rfl), h.vol]
  rfl

theorem ReelFor.threadAt_req? (h : ReelFor l t s r v) :
    ∃ q, (l.threadAt g s t d).req? t = some q ∧ q.state = .threading := by
  have hmoved : ((l.moveVol g s (.onDrive d)).updDrive d (Drive.threads g s)).req? t = some r := by
    rw [req?_of_live (congrArg RequestTable.live ((updDrive_reqs _ d _).trans (moveVol_reqs ..))), h.req]
  refine ⟨_, (req?_setReqState_self g t .threading _).trans (congrArg (Option.map _) hmoved), rfl⟩

end

/-! ## PLACE-BLOCKED at a cell -/

/-- A place step has found a cell taken: it is FOREIGN, and the volume, if it was its home, has none (R112). -/
def cellTaken (g : Settings) (s : Serial) (c : Nat) (l : Lib) : Lib := (l.clearHome g s .foreign).setCell c .foreign

section
variable (g : Settings) {t c : Nat} {s : Serial} {r : Request} {v : Volume} {l : Lib}

theorem ReelFor.blockedCell_eq (h : ReelFor l t s r v) {o : Order} (x : AccId) (hserves : o.serves = some t) :
    l.blockedCell g x o c = ((l.cellTaken g s c).decideAs false x).retargetOrHold g x := by
  unfold blockedCell
  rw [hserves, cargoOf_of_req? h.req, h.cargo]
  rfl

theorem cellTaken_only : PlaceOnly l (l.cellTaken g s c) := (clearHome_only g s _ l).trans (setCell_only c _ _)

theorem clearHome_cells_length (found : Cell) :
    (l.clearHome g s found).place.cells.length = l.place.cells.length := by
  unfold clearHome
  split <;> simp

theorem cell_cellTaken (hc : c < l.place.cells.length) : (l.cellTaken g s c).cell c = .foreign :=
  cell_setCell_self c .foreign _ (by rwa [clearHome_cells_length])

theorem vol?_cellTaken (hv : l.vol? s = some v) :
    (l.cellTaken g s c).vol? s = some { v with homeCell := none } := by
  unfold cellTaken
  rw [vol?_of_vols (congrArg Catalogue.vols (setCell_cat ..)), vol?_clearHome_self, hv]
  rfl

end

end Lib

/-! ## PLACE-BLOCKED at a drive -/

@[simp] theorem Drive.failed_reel (g : Settings) (code : Nat) (v : Drive) : (v.failed g code).reel = v.reel := by
  unfold Drive.failed
  rw [Drive.closed_eq]

namespace Lib

/-- A place step has found a drive blocked: the drive is FAULTED and empty, its DRIVE-ATTENTION is posted, and the
request goes to RETURNING with its code fixed and its drive lost (R53, R112; log 41). -/
def driveBlocked (g : Settings) (t d : Nat) (l : Lib) : Lib :=
  let faulted := (l.updDrive d fun v => { v with reel := .none, serving := none }).enterFaulted g d 0
  (((faulted.postAttention g d none).fixCode t .driveFault).setReqState g t .returning).dropDrive t

section
variable (g : Settings) {t d : Nat} {s : Serial} {r : Request} {v : Volume} {l : Lib}

theorem blockedDrive_eq {o : Order} (x : AccId) (hserves : o.serves = some t) :
    l.blockedDrive g x o d = ((l.driveBlocked g t d).decideAs true x).retargetOrHold g x := by
  unfold blockedDrive
  rw [hserves]
  rfl

theorem postAttention_none_only : PromptsOnly l (l.postAttention g d none) := postNotice_only ..

theorem driveBlocked_drives : (l.driveBlocked g t d).drives
    = l.drives.modify d fun v => ({ v with reel := .none, serving := none } : Drive).failed g 0 := by
  unfold driveBlocked dropDrive
  rw [updReq_drives, setReqState_drives, fixCode_drives, (postAttention_none_only g).drives, enterFaulted_eq,
    updDrive_updDrive]
  rfl

theorem driveBlocked_cat : (l.driveBlocked g t d).cat = l.cat := by
  unfold driveBlocked dropDrive
  rw [updReq_cat, setReqState_cat, fixCode_cat, (postAttention_none_only g).cat, enterFaulted_eq]
  rfl

theorem driveBlocked_place : (l.driveBlocked g t d).place = l.place := by
  unfold driveBlocked dropDrive
  rw [updReq_place, setReqState_place, fixCode_place, (postAttention_none_only g).place, enterFaulted_eq]
  rfl

theorem driveBlocked_rail : (l.driveBlocked g t d).rail = l.rail := by
  unfold driveBlocked dropDrive
  rw [updReq_rail, setReqState_rail, fixCode_rail, (postAttention_none_only g).rail, enterFaulted_eq]
  rfl

theorem driveBlocked_raised : (l.driveBlocked g t d).notes.raised
    = l.notes.raised ++ [{ source := .driveFault, drive := some d, columns := none, tag := none }] := by
  refine (setReqState_raised g t .returning _).trans ?_
  refine (congrArg Notes.raised (postAttention_none_only g).notes).trans ?_
  rw [enterFaulted_eq]
  rfl

theorem ReelFor.driveBlocked_req? (h : ReelFor l t s r v) :
    ∃ q, (l.driveBlocked g t d).req? t = some q ∧ q.state = .returning ∧ q.code = some .driveFault
      ∧ q.drive = if r.kind = .clean then r.drive else none := by
  have hfaulted : (((l.updDrive d fun v => { v with reel := .none, serving := none }).enterFaulted g d
      0).postAttention g d none).req? t = some r := by
    rw [req?_of_live (congrArg RequestTable.live (postAttention_none_only g).reqs), enterFaulted_eq]
    exact h.req
  unfold driveBlocked dropDrive
  rw [req?_updReq_self t _ _ (by intro _; rfl), req?_setReqState_self, req?_fixCode_self, hfaulted]
  exact ⟨_, rfl, rfl, congrArg (fun c : Option Code => some (c.getD .driveFault)) h.code, rfl⟩

end

/-! ## How the destination of an order in hand is decided -/

@[simp] theorem decideAs_cat (asReturn : Bool) (x : AccId) (l : Lib) : (l.decideAs asReturn x).cat = l.cat :=
  updAcc_cat ..
@[simp] theorem decideAs_place (asReturn : Bool) (x : AccId) (l : Lib) : (l.decideAs asReturn x).place = l.place :=
  updAcc_place ..
@[simp] theorem decideAs_drives (asReturn : Bool) (x : AccId) (l : Lib) : (l.decideAs asReturn x).drives = l.drives :=
  updAcc_drives ..
@[simp] theorem decideAs_notes (asReturn : Bool) (x : AccId) (l : Lib) : (l.decideAs asReturn x).notes = l.notes :=
  updAcc_notes ..

theorem decideAs_current (asReturn : Bool) {x : AccId} {l : Lib} {o : Order} (h : (l.acc x).current = some o) :
    ((l.decideAs asReturn x).acc x).current = some { o with asReturn := asReturn } := by
  simp [decideAs, h]

theorem decideAs_timer (asReturn : Bool) (x : AccId) (l : Lib) :
    ((l.decideAs asReturn x).acc x).timer = (l.acc x).timer := by
  simp [decideAs]

end Lib

/-! ## The place step of the order in hand -/

/-- The accessor carries a reel to a place: the order in hand has been sent under the number and picked, and it serves
the request that carries the volume. -/
structure Carrying (s : State) (x : AccId) (num tag : Nat) (source dest : Place) (serial : Serial) (o : Order)
    (r : Request) (v : Volume) : Prop where
  running : s.live
  current : (s.found.acc x).current = some o
  number : o.number = some num
  kind : o.kind = .transfer source (some dest)
  progress : o.progress = .picked
  serves : o.serves = some tag
  reel : s.found.ReelFor tag serial r v

section
variable {s : State} {x : AccId} {num tag c d : Nat} {source dest : Place} {serial : Serial} {o : Order} {r : Request}
  {v : Volume}

theorem Carrying.taken (h : Carrying s x num tag source dest serial o r v) : s.found.taken? x num = some o :=
  Lib.taken?_current h.current h.number

theorem Carrying.exec_placed_drive (h : Carrying s x num tag source (.drive d) serial o r v)
    (hkind : r.kind ≠ .clean) :
    exec (.placed x num (.drive d)) s = .next (s.settled
      (((s.found.setPos x (s.found.placeCol x (.drive d))).threadAt s.set serial tag d).endOrder s.set x)) := by
  rw [← (h.reel.setPos x _).placedDrive_eq s.set h.serves hkind]
  exact exec_event _ _ s h.running rfl _ (Lib.placedReport_drive s.set h.taken h.kind h.progress)

theorem Carrying.exec_placed_cell (h : Carrying s x num tag source (.cell c) serial o r v) :
    exec (.placed x num (.cell c)) s = .next (s.settled
      ((((s.found.setPos x (s.found.cellCol c)).putHome s.set serial c).complete s.set tag .ok).endOrder s.set x)) := by
  rw [← (h.reel.setPos x _).placedCell_eq s.set h.serves]
  exact exec_event _ _ s h.running rfl _ (Lib.placedReport_cell s.set h.taken h.kind h.progress)

theorem Carrying.exec_placeBlocked_cell (h : Carrying s x num tag source (.cell c) serial o r v) :
    exec (.placeBlocked x num (.cell c)) s = .next (s.settled
      ((((s.found.updAcc x (Accessor.blockedAt (s.found.cellCol c))).cellTaken s.set serial c).decideAs false
        x).retargetOrHold s.set x)) := by
  rw [← (h.reel.updAcc x _).blockedCell_eq s.set x h.serves]
  exact exec_event _ _ s h.running rfl _ (Lib.placeBlockedReport_cell s.set h.taken h.kind h.progress)

theorem Carrying.exec_placeBlocked_drive (h : Carrying s x num tag source (.drive d) serial o r v) :
    exec (.placeBlocked x num (.drive d)) s = .next (s.settled
      ((((s.found.updAcc x (Accessor.blockedAt (s.found.placeCol x (.drive d)))).driveBlocked s.set tag d).decideAs true
        x).retargetOrHold s.set x)) := by
  rw [← Lib.blockedDrive_eq s.set x h.serves]
  exact exec_event _ _ s h.running rfl _ (Lib.placeBlockedReport_drive s.set h.taken h.kind h.progress)

/-- An operation that leaves the rail alone leaves the blocked order in hand, to be decided as said. -/
theorem Carrying.blocked_current (h : Carrying s x num tag source dest serial o r v) (asReturn : Bool) {column : Nat}
    {m : Lib} (hm : m.rail = (s.found.updAcc x (Accessor.blockedAt column)).rail) :
    ((m.decideAs asReturn x).acc x).current = some { o with progress := .blocked, asReturn := asReturn } := by
  have hcur : (m.acc x).current = some { o with progress := .blocked } := by
    rw [Lib.acc_of_rail hm]; simp [Accessor.blockedAt, h.current]
  exact Lib.decideAs_current asReturn hcur

theorem blocked_timer (asReturn : Bool) {column : Nat} {l m : Lib}
    (hm : m.rail = (l.updAcc x (Accessor.blockedAt column)).rail) : ((m.decideAs asReturn x).acc x).timer = none := by
  rw [Lib.decideAs_timer, Lib.acc_of_rail hm]; simp [Accessor.blockedAt]

end

/-- Settles O58: what is placed ends its order, and a blocked place step looks for another place. -/
theorem placeReports : Obligations.PlaceReports := by
  unfold Obligations.PlaceReports
  intro x num tag source dest serial o r v s hl hshape hcur hnum hkind hprogress hserves hr hcargo horigin hcode hlive
    hv
  have h : Carrying s x num tag source dest serial o r v :=
    ⟨hl, hcur, hnum, hkind, hprogress, hserves, hr, hcargo, horigin, hcode, hlive, hv⟩
  have hlen : s.found.drives.length = 16 := drives_length_of_shape (found_shape hshape)
  refine ⟨?_, ?_, ?_, ?_⟩
  · rintro d rfl hd hmount
    have hclean : r.kind ≠ .clean := by rintro hk; simp [Request.isMount, hk] at hmount
    have hreel := h.reel.setPos x (s.found.placeCol x (.drive d))
    have hdrives : ((s.found.setPos x (s.found.placeCol x (.drive d))).threadAt s.set serial tag d).drives
        = s.found.drives.modify d (Drive.threads s.set serial) := by
      rw [Lib.threadAt_drives, Lib.setPos_drives]
    obtain ⟨hself, hothers⟩ := Lib.drive_of_modify hdrives (by rw [hlen]; exact hd)
    obtain ⟨q, hq, hthreading⟩ := hreel.threadAt_req? s.set (d := d)
    exact ⟨_, q, h.exec_placed_drive hclean, by rw [hself]; rfl, by rw [hself]; rfl, by rw [hself]; rfl,
      hq, hthreading, ⟨_, hreel.threadAt_vol? s.set, rfl⟩, hothers,
      (Lib.threadAt_place s.set).trans (Lib.setPos_place ..)⟩
  · rintro c rfl hc
    have hreel := h.reel.setPos x (s.found.cellCol c)
    obtain ⟨q, hdone⟩ := hreel.req?_complete s.set (Lib.putHome_only s.set).reqs .ok
    exact ⟨_, q, h.exec_placed_cell, Lib.placedCell_cell s.set (by rwa [Lib.setPos_place]),
      hreel.placedCell_vol? s.set, hdone⟩
  · rintro c rfl hc
    have hreel := h.reel.updAcc x (Accessor.blockedAt (s.found.cellCol c))
    have honly := Lib.cellTaken_only s.set (s := serial) (c := c)
      (l := s.found.updAcc x (Accessor.blockedAt (s.found.cellCol c)))
    exact ⟨_, h.exec_placeBlocked_cell,
      (Lib.updAcc_cell ..).trans (Lib.cell_cellTaken s.set (by rwa [Lib.updAcc_place])),
      h.blocked_current false honly.rail, blocked_timer false honly.rail,
      ⟨_, (Lib.updAcc_vol? ..).trans (Lib.vol?_cellTaken s.set hreel.vol), rfl⟩,
      by rw [Lib.decideAs_drives, honly.drives, Lib.updAcc_drives]⟩
  · rintro d rfl hd
    have hreel := h.reel.updAcc x (Accessor.blockedAt (s.found.placeCol x (.drive d)))
    have hrail := Lib.driveBlocked_rail s.set (t := tag) (d := d)
      (l := s.found.updAcc x (Accessor.blockedAt (s.found.placeCol x (.drive d))))
    have hdrives := (Lib.decideAs_drives true x _).trans (Lib.driveBlocked_drives s.set (t := tag) (d := d)
      (l := s.found.updAcc x (Accessor.blockedAt (s.found.placeCol x (.drive d)))))
    rw [Lib.updAcc_drives] at hdrives
    obtain ⟨hself, hothers⟩ := Lib.drive_of_modify hdrives (by rw [hlen]; exact hd)
    obtain ⟨q, hq, hreturning, hfixed, hdrive⟩ := hreel.driveBlocked_req? s.set (d := d)
    exact ⟨_, q, h.exec_placeBlocked_drive, by rw [hself]; rfl, by rw [hself]; rfl, by rw [hself]; simp,
      by rw [hself]; simp, hothers, by rw [Lib.decideAs_notes, Lib.driveBlocked_raised]; simp,
      h.blocked_current true hrail, blocked_timer true hrail, (Lib.updAcc_req? ..).trans hq, hreturning, hfixed, hdrive,
      by rw [Lib.decideAs_cat, Lib.driveBlocked_cat, Lib.updAcc_cat],
      by rw [Lib.decideAs_place, Lib.driveBlocked_place, Lib.updAcc_place]⟩

end Sys2Proof.Machine
end

section
/-! The fault of an accessor (R108, R115, R116) and the reply to Restore Accessor (R118). -/

namespace Sys2Proof.Machine

namespace Lib

/-! ## What the end of an order in hand leaves of the rail -/

section
variable (g : Settings)

theorem foldl_rail {α : Type} (f : Lib → α → Lib) (hf : ∀ a l, (f l a).rail = l.rail) (xs : List α) (l : Lib) :
    (xs.foldl f l).rail = l.rail := by
  induction xs generalizing l with
  | nil => rfl
  | cons x xs ih => rw [List.foldl_cons, ih, hf]

@[simp] theorem startImport_rail (k : Nat) (label : Option Serial) (s : Serial) (c : Option Nat) (l : Lib) :
    (l.startImport g k label s c).rail = l.rail := by
  unfold startImport createInternal rotate
  cases c <;> simp [(admitReq_only ..).rail]

@[simp] theorem handOver_rail (k : Nat) (s : Serial) (l : Lib) : (l.handOver g k s).rail = l.rail := by
  unfold handOver
  split
  · simp
  · split <;> simp

@[simp] theorem completeCancelled_rail (t : Nat) (l : Lib) : (l.completeCancelled g t).rail = l.rail := by
  unfold completeCancelled
  dsimp only
  split <;> simp

@[simp] theorem releaseDrive_rail (d : Nat) (l : Lib) : (l.releaseDrive d).rail = l.rail := by
  rw [releaseDrive_only]

@[simp] theorem releaseReservations_rail (o : Order) (t : Nat) (l : Lib) :
    (l.releaseReservations g o t).rail = l.rail := by
  unfold releaseReservations
  dsimp only
  rw [clearMarks_rail]
  split
  · split <;> simp [foldl_rail]
  · simp [foldl_rail]

@[simp] theorem backToList_rail (t : Nat) (l : Lib) : (l.backToList g t).rail = l.rail := by
  unfold backToList dropDrive
  split
  · rfl
  · split
    · split <;> simp
    · split <;> simp
    · simp
    · rfl

@[simp] theorem faultedOrder_rail (o : Order) (l : Lib) : (l.faultedOrder g o).rail = l.rail := by
  unfold faultedOrder
  split
  · rfl
  · split
    · simp
    · dsimp only
      split
      · simp
      · simp

end

end Lib

/-! ## The fault of an accessor -/

/-- An accessor that becomes FAULTED at a column (R115). -/
def Accessor.fails (why : FaultCause) (column : Nat) (v : Accessor) : Accessor :=
  { v with state := .faulted why column, current := none, staged := none, span := Span.point column, need := none
           query := none, frozen := false, timer := none, homing := .ended }

/-- The accessor is FAULTED and holds nothing, and its fault has been raised (R115, R116). -/
structure AccessorFailed (x : AccId) (why : FaultCause) (column : Nat) (m : Lib) : Prop where
  acc : ∃ v, m.acc x = Accessor.fails why column v
  raises : { source := .accessorFault, drive := none, columns := some ⟨column, column⟩, tag := none,
             accessor := some x } ∈ m.notes.raised

namespace Lib

/-- The column of the reserved span nearest the other accessor (R116). -/
def nearestColumn (l : Lib) (x : AccId) : Nat :=
  match x with
  | .a => (l.acc x).span.hi
  | .b => (l.acc x).span.lo

/-- The fault of an accessor: the accessor fails, and then the other one's waiting order is tested, and the volumes
that its end has freed join the scratch list (R7, R105, R115). -/
theorem faultAcc_fails (g : Settings) (x : AccId) (why : FaultCause) (column : Option Nat) (l : Lib) :
    ∃ m, l.faultAcc g x why column
        = ((m.dropUnreachable g (other x)).orderJoined l.cat.scratch).wake
      ∧ AccessorFailed x why (column.getD (l.nearestColumn x)) m := by
  unfold faultAcc
  refine ⟨_, rfl, ⟨(l.withdrawStaged g x).acc x, ?_⟩, ?_⟩
  · refine (acc_of_rail (postNotice_rail ..) x).trans ?_
    refine (acc_of_rail (withdrawNotice_rail ..) x).trans ?_
    rw [updateLock_acc, acc_of_rail (foldl_rail _ (faultedOrder_rail g) _ _), leftWait_acc, acc_updAcc_self]
    rfl
  · rw [postNotice_notes]
    exact List.mem_append_right _ (List.mem_singleton_self _)

theorem faultReport_of_working (g : Settings) {x : AccId} (column code : Nat) {l : Lib} (h : l.isFaulted x = false) :
    l.faultReport g x column code = (l.setPos x column).faultAcc g x (.reported code) (some column) := by
  unfold faultReport
  split
  · next hstate => simp [isFaulted, hstate] at h
  · rfl

theorem stepExpired_of_due (g : Settings) {x : AccId} {l : Lib} (h : l.isFaulted x = false)
    (hdue : (l.acc x).timer = some 0) : l.stepExpired g x = l.faultAcc g x .timeout none := by
  simp [stepExpired, isDue, h, hdue]

/-! ## The reply to Restore Accessor -/

theorem gripperReport_unasked (g : Settings) {x : AccId} {n : Nat} (column : Nat) (held : Reading) {l : Lib}
    (h : ∀ q, (l.acc x).query = some q → q.number ≠ n) : l.gripperReport g x n column held = l := by
  unfold gripperReport
  split
  · next q hq => rw [if_neg (h q hq)]
  · rfl

theorem gripperLost_of_none (g : Settings) {x : AccId} {l : Lib} (hvol : l.volInTransit? x = none)
    (hreturn : l.gripperReturn? x = none) : l.gripperLost g x = l := by
  simp [gripperLost, hvol, hreturn]

end Lib

/-- An accessor in answer to Restore Accessor, with the interlock flag clear (R118). -/
def Accessor.restored (column : Nat) (v : Accessor) : Accessor :=
  { v with state := .idle, pos := column, span := Span.point column, frozen := false, query := none
           timer := if v.state = .moving then v.timer else none }

namespace Lib

theorem volInTransit?_of_cat {l m : Lib} (h : m.cat = l.cat) (x : AccId) : m.volInTransit? x = l.volInTransit? x := by
  unfold volInTransit?; rw [h]

theorem gripperReturn?_of_reqs {l m : Lib} (h : m.reqs = l.reqs) (x : AccId) :
    m.gripperReturn? x = l.gripperReturn? x := by
  unfold gripperReturn?; rw [h]

/-- An empty gripper in answer to Restore Accessor, where the records look for no reel in it (R118). -/
theorem gripperReport_restores (g : Settings) {x : AccId} {n : Nat} (column : Nat) {l : Lib}
    (hquery : (l.acc x).query = some ⟨n, .restore⟩) (hlock : l.rail.interlock = false)
    (hvol : l.volInTransit? x = none) (hreturn : l.gripperReturn? x = none) :
    l.gripperReport g x n column .empty
      = (((l.updAcc x (Accessor.restored column)).withdrawNotice g .accessorFault
          fun p => p.accessor = some x).contend g (other x)).wake := by
  have hlost : ∀ f, (l.updAcc x f).gripperLost g x = l.updAcc x f := fun f =>
    gripperLost_of_none g ((volInTransit?_of_cat (updAcc_cat ..) x).trans hvol)
      ((gripperReturn?_of_reqs (updAcc_reqs ..) x).trans hreturn)
  unfold gripperReport
  simp only [hquery, if_true, normReading, restoreReply, setPos, updAcc_updAcc, settleGripper, hlost,
    updAcc_interlock, hlock]
  rfl

end Lib

/-! ## The steps -/

section
variable {x : AccId} {s : State}

theorem exec_accessorFaultReport (hl : s.live) (n : Nat) {column code : Nat} (hfaulted : s.found.isFaulted x = false)
    (hcolumn : column < s.found.columns) (hlo : 1 ≤ code) (hhi : code ≤ 255) :
    exec (.accessorFaultReport x n column code) s = .next (s.settled
      ((s.found.setPos x column).faultAcc s.set x (.reported code) (some column))) := by
  refine exec_event _ _ s hl rfl _ ((if_pos ?_).trans (Lib.faultReport_of_working s.set column code hfaulted))
  simp [Lib.columnOk, hcolumn, hlo, hhi]

theorem exec_stepLimitExpiry (hl : s.live) (hfaulted : s.found.isFaulted x = false)
    (hdue : (s.found.acc x).timer = some 0) :
    exec (.stepLimitExpiry x) s = .next (s.settled (s.found.faultAcc s.set x .timeout none)) :=
  exec_event _ _ s hl rfl _ (Lib.stepExpired_of_due s.set hfaulted hdue)

theorem exec_gripper (hl : s.live) (n : Nat) {column : Nat} (held : Reading) (hcolumn : column < s.found.columns) :
    exec (.gripper x n column held) s = .next (s.settled (s.found.gripperReport s.set x n column held)) :=
  exec_event _ _ s hl rfl _ (if_pos (decide_eq_true hcolumn))

theorem exec_gripper_unasked (hl : s.live) {n : Nat} (column : Nat) (held : Reading)
    (h : ∀ q, (s.found.acc x).query = some q → q.number ≠ n) :
    exec (.gripper x n column held) s = .next { s with lib := s.found } := by
  refine exec_event_quiet _ _ s hl rfl _ ?_ (found_notes s)
  rw [Lib.gripperReport_unasked s.set column held h, ite_self]

/-- A step in which the accessor fails, the records' scratch list being as the event finds it. -/
theorem faults_of_faultAcc {c : Instr} {why : FaultCause} {column : Option Nat} {l : Lib}
    (hexec : exec c s = .next (s.settled (l.faultAcc s.set x why column)))
    (hscratch : l.cat.scratch = s.found.cat.scratch) :
    ∃ m, exec c s = .next (s.settled (((m.dropUnreachable s.set (other x)).orderJoined s.found.cat.scratch).wake))
      ∧ AccessorFailed x why (column.getD (l.nearestColumn x)) m := by
  obtain ⟨m, hm, hfails⟩ := l.faultAcc_fails s.set x why column
  exact ⟨m, by rw [hexec, hm, hscratch], hfails⟩

end

/-- Settles O60: the accessor fails, whichever way it does; a reply that is asked for brings it back. -/
theorem faultAndRestoreReply : Obligations.FaultAndRestoreReply := by
  unfold Obligations.FaultAndRestoreReply
  intro x s hl faults
  have hfaults : ∀ {c : Instr} {why : FaultCause} {column : Nat}, (∃ m, exec c s = .next (s.settled
        (((m.dropUnreachable s.set (other x)).orderJoined s.found.cat.scratch).wake))
      ∧ AccessorFailed x why column m) → faults c why column := by
    rintro c why column ⟨m, hexec, ⟨v, hacc⟩, hraised⟩
    refine ⟨m, hexec, ?_, ?_, ?_, ?_, ?_, ?_, hraised⟩ <;> rw [hacc] <;> rfl
  refine ⟨fun n column code hfaulted hcolumn hlo hhi => ?_, fun hfaulted hdue => ?_,
    fun n column hcolumn hquery hfaulted hlock hvol hreturn => ?_, fun n column held hunasked => ?_⟩
  · exact hfaults (faults_of_faultAcc (exec_accessorFaultReport hl n hfaulted hcolumn hlo hhi)
      (congrArg Catalogue.scratch (Lib.setPos_cat ..)))
  · exact hfaults (faults_of_faultAcc (exec_stepLimitExpiry hl hfaulted hdue) rfl)
  · have hexec := exec_gripper (x := x) hl n .empty hcolumn
    rw [Lib.gripperReport_restores s.set column hquery hlock hvol hreturn] at hexec
    have hacc := (Lib.acc_of_rail (Lib.withdrawNotice_rail s.set .accessorFault (fun p => p.accessor = some x)
      (s.found.updAcc x (Accessor.restored column))) x).trans (Lib.acc_updAcc_self ..)
    refine ⟨_, hexec, ?_, ?_, ?_, ?_, ?_, (Lib.withdrawNotice_cat ..).trans (Lib.updAcc_cat ..),
      (Lib.withdrawNotice_drives ..).trans (Lib.updAcc_drives ..)⟩ <;> rw [hacc] <;> rfl
  · exact exec_gripper_unasked hl column held hunasked

end Sys2Proof.Machine
end

section
/-! Restore Accessor (R117) and Resume Library (R121). -/

namespace Sys2Proof.Machine

namespace Lib

/-! ## A query sent -/


end Lib

/-- An accessor that is asked what its gripper holds, under the next number (R102, R108). -/
def Accessor.asked (g : Settings) (why : QueryFor) (v : Accessor) : Accessor :=
  { v with counter := nextOrder v.counter, query := some ⟨nextOrder v.counter, why⟩, timer := some g.timers.step }

namespace Lib

section
variable (g : Settings) (x : AccId) (why : QueryFor) (l : Lib)

theorem sendQuery_acc_self : (l.sendQuery g x why).acc x = (l.acc x).asked g why := by cases x <;> rfl

theorem sendQuery_acc_other : (l.sendQuery g x why).acc (other x) = l.acc (other x) := by cases x <;> rfl

theorem sendQuery_out : (l.sendQuery g x why).out = l.out ++ [.gripperQuery x (nextOrder (l.acc x).counter)] := by
  cases x <;> rfl

/-- A query changes the rail and what is sent alone. -/
theorem sendQuery_only :
    l.sendQuery g x why = { l with rail := (l.sendQuery g x why).rail, out := (l.sendQuery g x why).out } := by
  cases x <;> rfl

end

/-! ## The queries of Resume Library -/

/-- The accessor has been asked what its gripper holds, for the resume. -/
def AskedToResume (x : AccId) (l : Lib) : Prop :=
  ∃ n, (l.acc x).query = some ⟨n, .resume⟩ ∧ Msg.gripperQuery x n ∈ l.out

section
variable (g : Settings) (x : AccId) (l : Lib)

theorem resumeQuery_only :
    l.resumeQuery g x = { l with rail := (l.resumeQuery g x).rail, out := (l.resumeQuery g x).out } := by
  unfold resumeQuery
  split
  · exact sendQuery_only g x .resume l
  · rfl

theorem resumeQuery_interlock : (l.resumeQuery g x).rail.interlock = l.rail.interlock := by
  unfold resumeQuery
  split
  · cases x <;> rfl
  · rfl

theorem resumeQuery_acc_other : (l.resumeQuery g x).acc (other x) = l.acc (other x) := by
  unfold resumeQuery
  split
  · exact sendQuery_acc_other g x .resume l
  · rfl

theorem resumeQuery_sent : l.out <+: (l.resumeQuery g x).out := by
  unfold resumeQuery
  split
  · rw [sendQuery_out]; exact List.prefix_append ..
  · exact List.prefix_rfl

variable {x l}

theorem resumeQuery_asks (hstate : (l.acc x).state = .halted) (hquery : (l.acc x).query = none) :
    (l.resumeQuery g x).AskedToResume x := by
  have hsends : l.resumeQuery g x = l.sendQuery g x .resume := by simp [resumeQuery, hstate, hquery]
  rw [hsends]
  refine ⟨nextOrder (l.acc x).counter, ?_, ?_⟩
  · rw [sendQuery_acc_self]; rfl
  · rw [sendQuery_out]; exact List.mem_append_right _ (List.mem_singleton_self _)

theorem AskedToResume.resumeQuery_other (h : l.AskedToResume (other x)) :
    (l.resumeQuery g x).AskedToResume (other x) := by
  obtain ⟨n, hquery, hsent⟩ := h
  exact ⟨n, by rwa [resumeQuery_acc_other], (resumeQuery_sent g x l).subset hsent⟩

end

/-- The records of Resume Library (R121): the interlock flag is clear, and each HALTED accessor is asked. -/
def resumed (g : Settings) (l : Lib) : Lib :=
  ((({ l with rail := { l.rail with interlock := false } } : Lib).resumeQuery g .a).resumeQuery g .b).wake

theorem resumed_only (g : Settings) (l : Lib) : l.resumed g
    = { l with rail := (l.resumed g).rail, out := (l.resumed g).out, notes := (l.resumed g).notes } := by
  unfold resumed
  rw [resumeQuery_only g .b, resumeQuery_only g .a]
  rfl

theorem resumed_interlock (g : Settings) (l : Lib) : (l.resumed g).rail.interlock = false :=
  (resumeQuery_interlock g .b _).trans (resumeQuery_interlock g .a _)

theorem resumed_asks (g : Settings) {x : AccId} {l : Lib} (hstate : (l.acc x).state = .halted)
    (hquery : (l.acc x).query = none) : (l.resumed g).AskedToResume x := by
  cases x with
  | a =>
    have hasks := resumeQuery_asks g (x := .a) (l := { l with rail := { l.rail with interlock := false } }) hstate
      hquery
    exact hasks.resumeQuery_other (x := .b) g
  | b =>
    have hother := resumeQuery_acc_other g .a { l with rail := { l.rail with interlock := false } }
    exact resumeQuery_asks g ((congrArg Accessor.state hother).trans hstate)
      ((congrArg Accessor.query hother).trans hquery)

end Lib

/-! ## The commands -/

section
variable {s : State} {n : Nat}

theorem exec_restoreAccessor (hl : s.live) (hs : s.serving) (hn : n ≤ 1) (hfaulted : s.lib.isFaulted (accOf n) = true)
    (hquery : (s.lib.acc (accOf n)).query = none) :
    let l := s.lib.begin.sendQuery s.set (accOf n) .restore
    exec (.restoreAccessor n) s = .next (s.after s.set l (.good (accessorFields (l.acc (accOf n))))) := by
  have hquiet : (s.lib.begin.sendQuery s.set (accOf n) .restore).notes = .none := by rw [Lib.sendQuery_only]; rfl
  have hexec := exec_answers (.restoreAccessor n) (cmdRestoreAccessor n) s hl rfl
    (s.lib.begin.sendQuery s.set (accOf n) .restore) (fun l => accessorFields (l.acc (accOf n))) ?_
  · rwa [Lib.settle_quiet _ _ hquiet] at hexec
  · have hfaulted' : s.lib.begin.isFaulted (accOf n) = true := hfaulted
    exact gated_checks_of_forall hs _ _ _ _ (by simp [hn, hfaulted', hquery])

theorem exec_restoreAccessor_unknown (hl : s.live) (hs : s.serving) (hn : 1 < n) :
    exec (.restoreAccessor n) s = .next (s.after s.set s.lib.begin (.check .invalidField .none)) := by
  refine exec_refuse _ _ s hl rfl _ _ ?_
  unfold cmdRestoreAccessor
  rw [gated_serving _ _ s.set s.lib.begin _ hs, decide_eq_false (Nat.not_le.2 hn), checks_fail]

theorem exec_restoreAccessor_unfit (hl : s.live) (hs : s.serving) (hn : n ≤ 1)
    (hunfit : s.lib.isFaulted (accOf n) = false ∨ (s.lib.acc (accOf n)).query ≠ none) :
    exec (.restoreAccessor n) s = .next (s.after s.set s.lib.begin (.check .accessorState (.accessor n))) := by
  have hcheck : (s.lib.begin.isFaulted (accOf n) && (s.lib.begin.acc (accOf n)).query.isNone) = false := by
    rw [begin_acc, show s.lib.begin.isFaulted (accOf n) = s.lib.isFaulted (accOf n) from rfl]
    rcases hunfit with h | h
    · simp [h]
    · simp [Option.isNone_eq_false_iff, Option.isSome_iff_ne_none, h]
  refine exec_refuse _ _ s hl rfl _ _ ?_
  unfold cmdRestoreAccessor
  rw [gated_serving _ _ s.set s.lib.begin _ hs, decide_eq_true hn, checks_pass, hcheck, checks_fail]

theorem exec_resumeLibrary (hl : s.live) (hclosed : s.lib.rail.serviceOpen = false)
    (hlock : s.lib.rail.interlock = true) :
    exec .resumeLibrary s = .next (s.after s.set ((s.lib.begin.resumed s.set).settle s.set) (.good [])) := by
  refine exec_good _ _ s hl rfl _ _ _ ?_
  unfold cmdResumeLibrary
  rw [gated_always, Lib.begin_rail, hclosed, hlock, Bool.not_false, checks_pass, checks_pass, checks_nil]
  rfl

theorem exec_resumeLibrary_open (hl : s.live) (hopen : s.lib.rail.serviceOpen = true) :
    exec .resumeLibrary s = .next (s.after s.set s.lib.begin (.check .doorOpen .none)) := by
  refine exec_refuse _ _ s hl rfl _ _ ?_
  unfold cmdResumeLibrary
  rw [gated_always, Lib.begin_rail, hopen, Bool.not_true, checks_fail]

theorem exec_resumeLibrary_unlocked (hl : s.live) (hclosed : s.lib.rail.serviceOpen = false)
    (hlock : s.lib.rail.interlock = false) :
    exec .resumeLibrary s = .next (s.after s.set s.lib.begin (.check .requestState .none)) := by
  refine exec_refuse _ _ s hl rfl _ _ ?_
  unfold cmdResumeLibrary
  rw [gated_always, Lib.begin_rail, hclosed, hlock, Bool.not_false, checks_pass, checks_fail]

end

/-- Settles O56: the checks in order, and the queries that the two commands send. -/
theorem restoreAndResume : Obligations.RestoreAndResume := by
  unfold Obligations.RestoreAndResume
  intro s hl
  refine ⟨fun n hs hn hfaulted hquery => ?_, fun n hs hn => exec_restoreAccessor_unknown hl hs hn,
    fun n hs hn hunfit => exec_restoreAccessor_unfit hl hs hn hunfit, fun hclosed hlock => ?_,
    exec_resumeLibrary_open hl, exec_resumeLibrary_unlocked hl⟩
  · refine ⟨_, _, exec_restoreAccessor hl hs hn hfaulted hquery, rfl, ?_, Lib.sendQuery_acc_self ..,
      Lib.sendQuery_acc_other ..⟩
    exact (Lib.sendQuery_only ..).trans (by rw [Lib.sendQuery_out]; rfl)
  · exact ⟨_, exec_resumeLibrary hl hclosed hlock, Lib.resumed_only .., Lib.resumed_interlock ..,
      fun x hstate hquery => Lib.resumed_asks s.set hstate hquery⟩

end Sys2Proof.Machine
end

section
/-! The service door: the interlock and its HALTs (R119, R123, R182), and the span that its closing raises (R120,
R169). -/

namespace Sys2Proof.Machine

theorem OrdersOnly.foldl {α : Type} (f : Lib → α → Lib) (hf : ∀ l a, OrdersOnly l (f l a)) (xs : List α)
    (l : Lib) : OrdersOnly l (xs.foldl f l) := by
  induction xs generalizing l with
  | nil => exact .refl l
  | cons x xs ih => exact (hf l x).trans (ih _)

theorem eq_other_of_ne : ∀ {x y : AccId}, y ≠ x → y = other x
  | .a, .a, h => absurd rfl h
  | .a, .b, _ => rfl
  | .b, .a, _ => rfl
  | .b, .b, h => absurd rfl h

namespace Lib

theorem acc_updAcc_ne {x y : AccId} (h : y ≠ x) (f : Accessor → Accessor) (l : Lib) :
    (l.updAcc x f).acc y = l.acc y := by
  rw [eq_other_of_ne h, acc_updAcc_other]

/-! ## The withdrawal of a staged order -/

/-- A withdrawal changes the staged slot of the rail at most (R99). -/
theorem withdrawStaged_rail (g : Settings) (x : AccId) (l : Lib) :
    (l.withdrawStaged g x).rail = l.rail
      ∨ (l.withdrawStaged g x).rail = (l.updAcc x fun v => { v with staged := none }).rail := by
  have hunstage : (l.unstage x).rail = (l.updAcc x fun v => { v with staged := none }).rail := by
    unfold unstage
    rw [updateLock_rail]
    rfl
  unfold withdrawStaged
  split
  · exact .inl rfl
  · split
    · exact .inl rfl
    · dsimp only
      split
      · rw [backToList_rail, releaseReservations_rail]; exact .inr hunstage
      · exact .inr hunstage

/-- What a withdrawal leaves of an accessor: all but its staged order. -/
theorem withdrawStaged_field {α : Type} (p : Accessor → α) (hp : ∀ v, p { v with staged := none } = p v)
    (g : Settings) (x y : AccId) (l : Lib) : p ((l.withdrawStaged g x).acc y) = p (l.acc y) := by
  rcases withdrawStaged_rail g x l with h | h
  · rw [acc_of_rail h]
  · rw [acc_of_rail h]
    by_cases hy : y = x
    · subst hy
      rw [acc_updAcc_self, hp]
    · rw [acc_updAcc_ne hy]

theorem isFaulted_of_state {l m : Lib} {x : AccId} (h : (m.acc x).state = (l.acc x).state) :
    m.isFaulted x = l.isFaulted x := by
  unfold isFaulted; rw [h]

theorem updateLock_sent (l : Lib) : l.out <+: l.updateLock.out := by
  unfold updateLock
  dsimp only
  split
  · exact List.prefix_append ..
  · split
    · exact List.prefix_append ..
    · exact List.prefix_rfl

theorem postNotice_sent (g : Settings) (kind : PromptKind) (x : PromptSubject) (n : Nat) (l : Lib) :
    l.out <+: (l.postNotice g kind x n).out := by
  unfold postNotice
  split
  · exact List.prefix_rfl
  · split
    · exact postAt_sent ..
    · split
      · exact (emptySlot_sent ..).trans (postAt_sent ..)
      · exact List.prefix_rfl

/-! ## HALT -/

/-- The accessor is neither FAULTED nor HALTED: the interlock gives it HALT (R119). -/
structure MayHalt (x : AccId) (l : Lib) : Prop where
  working : l.isFaulted x = false
  running : (l.acc x).state ≠ .halted

/-- The accessor is HALTED and has been given HALT. -/
structure GivenHalt (x : AccId) (l : Lib) : Prop where
  state : (l.acc x).state = .halted
  sent : Msg.halt x ∈ l.out

end Lib

/-- An accessor given HALT: its order, one set aside before a YIELD, is frozen, and a reconcile query stands (R105,
R119, R182). -/
def Accessor.halted (v : Accessor) : Accessor :=
  let order := v.staged.or v.current
  let query := v.query.filter fun q => q.purpose = .reconcile
  { v with state := .halted, current := order, staged := none, frozen := order.isSome, need := none, query := query
           timer := if query.isSome then v.timer else none }

namespace Lib

section
variable {x y : AccId} {l : Lib}

theorem haltAcc_of_mayHalt (h : l.MayHalt x) : l.haltAcc x = (l.updAcc x Accessor.halted).send (.halt x) := by
  obtain ⟨hfaulted, hstate⟩ := h
  unfold haltAcc
  rw [if_neg (by simp [hfaulted, hstate])]
  cases x
  · cases hs : l.rail.accA.staged <;> simp [acc, hs, updAcc, Accessor.halted]
  · cases hs : l.rail.accB.staged <;> simp [acc, hs, updAcc, Accessor.halted]

theorem haltAcc_of_not (h : ¬ l.MayHalt x) : l.haltAcc x = l := by
  refine if_pos ?_
  by_contra hneither
  obtain ⟨hworking, hrunning⟩ : l.isFaulted x = false ∧ (l.acc x).state ≠ .halted := by simpa using hneither
  exact h ⟨hworking, hrunning⟩

theorem haltAcc_only (x : AccId) (l : Lib) : OrdersOnly l (l.haltAcc x) := by
  unfold haltAcc
  split
  · exact .refl l
  · exact (updAcc_only x _ l).trans rfl

theorem haltAcc_acc_ne (h : y ≠ x) : (l.haltAcc x).acc y = l.acc y := by
  by_cases hx : l.MayHalt x
  · rw [haltAcc_of_mayHalt hx, send_acc, acc_updAcc_ne h]
  · rw [haltAcc_of_not hx]

theorem haltAcc_sent (x : AccId) (l : Lib) : l.out <+: (l.haltAcc x).out := by
  by_cases hx : l.MayHalt x
  · rw [haltAcc_of_mayHalt hx, send_out, updAcc_out]; exact List.prefix_append ..
  · rw [haltAcc_of_not hx]

theorem MayHalt.of_state {m : Lib} (h : l.MayHalt x) (hm : (m.acc x).state = (l.acc x).state) : m.MayHalt x :=
  ⟨(isFaulted_of_state hm).trans h.working, by rw [hm]; exact h.running⟩

theorem MayHalt.givenHalt (h : l.MayHalt x) : (l.haltAcc x).GivenHalt x := by
  rw [haltAcc_of_mayHalt h]
  refine ⟨?_, List.mem_append_right _ (List.mem_singleton_self _)⟩
  rw [send_acc, acc_updAcc_self]
  rfl

theorem GivenHalt.haltAcc (h : l.GivenHalt x) (y : AccId) : (l.haltAcc y).GivenHalt x := by
  refine ⟨?_, (haltAcc_sent y l).subset h.sent⟩
  by_cases hy : x = y
  · subst hy
    rw [haltAcc_of_not fun hx => hx.running h.state, h.state]
  · rw [haltAcc_acc_ne hy, h.state]

/-- Each accessor of a row that may halt is given HALT. -/
theorem MayHalt.foldl {xs : List AccId} (h : l.MayHalt x) (hx : x ∈ xs) :
    (xs.foldl (fun l x => l.haltAcc x) l).GivenHalt x := by
  have hkept : ∀ (ys : List AccId) (m : Lib), m.GivenHalt x →
      (ys.foldl (fun l x => l.haltAcc x) m).GivenHalt x := by
    intro ys
    induction ys with
    | nil => exact fun m hm => hm
    | cons y ys ih => exact fun m hm => ih _ (hm.haltAcc y)
  induction xs generalizing l with
  | nil => cases hx
  | cons y ys ih =>
    by_cases hy : x = y
    · subst hy
      exact hkept ys _ h.givenHalt
    · exact ih (h.of_state (congrArg Accessor.state (haltAcc_acc_ne hy)))
        ((List.mem_cons.1 hx).resolve_left hy)

/-- A reconcile query outstanding stands at a HALT (R182). -/
theorem haltAcc_query {q : Query} (hquery : (l.acc x).query = some q) (hpurpose : q.purpose = .reconcile) (y : AccId) :
    ((l.haltAcc y).acc x).query = some q := by
  by_cases hy : x = y
  · subst hy
    by_cases hx : l.MayHalt x
    · rw [haltAcc_of_mayHalt hx, send_acc, acc_updAcc_self]
      simp [Accessor.halted, hquery, hpurpose]
    · rw [haltAcc_of_not hx, hquery]
  · rw [haltAcc_acc_ne hy, hquery]

theorem foldl_haltAcc_query {q : Query} (hquery : (l.acc x).query = some q) (hpurpose : q.purpose = .reconcile)
    (xs : List AccId) : ((xs.foldl (fun l x => l.haltAcc x) l).acc x).query = some q := by
  induction xs generalizing l with
  | nil => exact hquery
  | cons y ys ih => exact ih (haltAcc_query hquery hpurpose y)

/-! ## The queries outstanding at a HALT -/

theorem forgetResume_only (x : AccId) (l : Lib) : OrdersOnly l (l.forgetResume x) := by
  unfold forgetResume
  split
  · exact updAcc_only x _ l
  · exact .refl l

theorem forgetResume_state (x y : AccId) (l : Lib) : ((l.forgetResume x).acc y).state = (l.acc y).state := by
  unfold forgetResume
  split
  · cases x <;> cases y <;> rfl
  · rfl

/-- A reconcile query is not one that is forgotten. -/
theorem forgetResume_query {q : Query} (hquery : (l.acc x).query = some q) (hpurpose : q.purpose = .reconcile)
    (y : AccId) : ((l.forgetResume y).acc x).query = some q := by
  unfold forgetResume
  split
  · next hresume =>
    have hy : x ≠ y := by rintro rfl; simp [hquery, hpurpose] at hresume
    rw [acc_updAcc_ne hy, hquery]
  · exact hquery

section
variable (g : Settings)

theorem restartQuery_only (x : AccId) (l : Lib) : OrdersOnly l (l.restartQuery g x) := by
  unfold restartQuery
  split
  · exact updAcc_only x _ l
  · exact .refl l

theorem restartQuery_state (x y : AccId) (l : Lib) : ((l.restartQuery g x).acc y).state = (l.acc y).state := by
  unfold restartQuery
  split
  · cases x <;> cases y <;> rfl
  · rfl

theorem restartQuery_out (x : AccId) (l : Lib) : (l.restartQuery g x).out = l.out := by
  unfold restartQuery
  split
  · rw [updAcc_out]
  · rfl

theorem restartQuery_acc_ne (h : y ≠ x) : (l.restartQuery g x).acc y = l.acc y := by
  unfold restartQuery
  split
  · rw [acc_updAcc_ne h]
  · rfl

/-- The accessor waits for the answer to its query, with its step timer started again (R123, R182; log 55). -/
structure Awaits (x : AccId) (q : Query) (g : Settings) (l : Lib) : Prop where
  query : (l.acc x).query = some q
  timer : (l.acc x).timer = some g.timers.step

theorem Awaits.of_acc {q : Query} {m : Lib} (h : l.Awaits x q g) (hm : m.acc x = l.acc x) : m.Awaits x q g :=
  ⟨by rw [hm, h.query], by rw [hm, h.timer]⟩

theorem restartQuery_awaits {q : Query} (hquery : (l.acc x).query = some q) (hpurpose : q.purpose = .reconcile) :
    (l.restartQuery g x).Awaits x q g := by
  unfold restartQuery
  rw [if_pos (by simp [hquery, hpurpose])]
  exact ⟨by rw [acc_updAcc_self]; exact hquery, by rw [acc_updAcc_self]⟩

/-- Both queries outstanding are started again, A's and then B's. -/
def restartQueries (l : Lib) : Lib := (l.restartQuery g .a).restartQuery g .b

theorem restartQueries_awaits {q : Query} (hquery : (l.acc x).query = some q) (hpurpose : q.purpose = .reconcile) :
    (l.restartQueries g).Awaits x q g := by
  unfold restartQueries
  cases x with
  | a => exact (restartQuery_awaits g hquery hpurpose).of_acc g (restartQuery_acc_ne g (by decide))
  | b =>
    refine restartQuery_awaits g ?_ hpurpose
    rw [restartQuery_acc_ne g (by decide), hquery]

theorem GivenHalt.restartQueries (h : l.GivenHalt x) : (l.restartQueries g).GivenHalt x := by
  refine ⟨(restartQuery_state g .b x _).trans ((restartQuery_state g .a x l).trans h.state), ?_⟩
  unfold Lib.restartQueries
  rw [restartQuery_out, restartQuery_out]
  exact h.sent

end

end

/-! ## The interlock -/

/-- The accessors that the interlock gives HALT (R119). -/
def halting (l : Lib) : List AccId := [AccId.a, AccId.b].filter fun x => !l.isFaulted x && (l.acc x).state ≠ .halted

theorem mem_halting {x : AccId} {l : Lib} (h : l.MayHalt x) : x ∈ l.halting := by
  have hboth : x ∈ [AccId.a, AccId.b] := by cases x <;> decide
  exact List.mem_filter.2 ⟨hboth, by simp [h.working, h.running]⟩

/-- The records before the HALTs: the staged orders withdrawn, the halted span recorded, and the resume replies no
longer awaited (R119, R123). -/
def toHalt (g : Settings) (l : Lib) : Lib :=
  let m := (l.withdrawStaged g .a).withdrawStaged g .b
  (({ m with rail := { m.rail with
      haltedSpan := m.spanOver l.halting, firstWaiter := none } } : Lib).forgetResume .a).forgetResume .b

/-- The records after the HALTs. -/
def halted (g : Settings) (l : Lib) : Lib :=
  (l.halting.foldl (fun l x => l.haltAcc x) (l.toHalt g)).restartQueries g

/-- The interlock flag is set (R119). -/
def setInterlock (l : Lib) : Lib := { l with rail := { l.rail with interlock := true } }

theorem interlock_eq (g : Settings) (l : Lib) : l.interlock g = (l.halted g).setInterlock.updateLock := rfl

section
variable (g : Settings) {x : AccId} {l : Lib}

theorem acc_setHaltedSpan (s : Option Span) (w : Option AccId) :
    ({ l with rail := { l.rail with haltedSpan := s, firstWaiter := w } } : Lib).acc x = l.acc x := by
  cases x <;> rfl

theorem toHalt_state : ((l.toHalt g).acc x).state = (l.acc x).state := by
  have hkeep : ∀ v : Accessor, ({ v with staged := none } : Accessor).state = v.state := fun _ => rfl
  unfold toHalt
  rw [forgetResume_state, forgetResume_state, acc_setHaltedSpan, withdrawStaged_field Accessor.state hkeep,
    withdrawStaged_field Accessor.state hkeep]

theorem toHalt_query {q : Query} (hquery : (l.acc x).query = some q) (hpurpose : q.purpose = .reconcile) :
    ((l.toHalt g).acc x).query = some q := by
  have hkeep : ∀ v : Accessor, ({ v with staged := none } : Accessor).query = v.query := fun _ => rfl
  unfold toHalt
  refine forgetResume_query (forgetResume_query ?_ hpurpose .a) hpurpose .b
  rw [acc_setHaltedSpan, withdrawStaged_field Accessor.query hkeep, withdrawStaged_field Accessor.query hkeep, hquery]

theorem toHalt_serviceOpen : (l.toHalt g).rail.serviceOpen = l.rail.serviceOpen := by
  have hwithdrawn : ((l.withdrawStaged g .a).withdrawStaged g .b).fixed = l.fixed :=
    (withdrawStaged_fixed ..).trans (withdrawStaged_fixed ..)
  refine Eq.trans ?_ (congrArg Fixed.serviceOpen hwithdrawn)
  exact congrArg Fixed.serviceOpen ((forgetResume_only .b _).fixed.trans (forgetResume_only .a _).fixed)

theorem halted_only : OrdersOnly (l.toHalt g) (l.halted g) :=
  (OrdersOnly.foldl (fun l x => l.haltAcc x) (fun l x => haltAcc_only x l) l.halting _).trans
    ((restartQuery_only g .a _).trans (restartQuery_only g .b _))

theorem halted_serviceOpen : (l.halted g).rail.serviceOpen = l.rail.serviceOpen :=
  (congrArg Fixed.serviceOpen (halted_only g).fixed).trans (toHalt_serviceOpen g)

theorem interlock_acc : (l.interlock g).acc x = (l.halted g).acc x := by
  rw [interlock_eq, updateLock_acc]
  cases x <;> rfl

theorem interlock_sent : (l.halted g).out <+: (l.interlock g).out := by
  rw [interlock_eq]
  exact updateLock_sent (l.halted g).setInterlock

theorem interlock_interlock : (l.interlock g).rail.interlock = true := by
  rw [interlock_eq, updateLock_rail]
  rfl

theorem interlock_serviceOpen : (l.interlock g).rail.serviceOpen = l.rail.serviceOpen := by
  rw [interlock_eq, updateLock_rail]
  exact halted_serviceOpen g

theorem interlock_gives (h : l.MayHalt x) : (l.interlock g).GivenHalt x := by
  have hgiven : (l.halted g).GivenHalt x :=
    ((h.of_state (toHalt_state g)).foldl (mem_halting h)).restartQueries g
  exact ⟨(congrArg Accessor.state (interlock_acc g)).trans hgiven.state, (interlock_sent g).subset hgiven.sent⟩

theorem interlock_awaits {q : Query} (hquery : (l.acc x).query = some q) (hpurpose : q.purpose = .reconcile) :
    (l.interlock g).Awaits x q g := by
  have hawaits : (l.halted g).Awaits x q g :=
    restartQueries_awaits g (foldl_haltAcc_query (toHalt_query g hquery hpurpose) hpurpose l.halting) hpurpose
  exact hawaits.of_acc g (interlock_acc g)

end

/-! ## OPENED and CLOSED -/

section
variable (g : Settings) {l : Lib}

/-- The records as the door is OPENED, with the interlock flag as it is or set now (R119, R123). -/
def doorLocked (l : Lib) : Lib :=
  let m : Lib := { l with rail := { l.rail with serviceOpen := true } }
  if m.rail.interlock then m else m.interlock g

theorem serviceOpened_eq (h : l.rail.serviceOpen = false) : l.serviceOpened g
    = ((l.doorLocked g).setCause causeInterlock).postNotice g .interlock .nothing 0 := by
  unfold serviceOpened
  rw [h]
  rfl

theorem doorLocked_of_unlocked (h : l.rail.interlock = false) : l.doorLocked g
    = ({ l with rail := { l.rail with serviceOpen := true } } : Lib).interlock g :=
  if_neg (by rw [h]; decide)

theorem doorLocked_rail : (l.doorLocked g).rail.serviceOpen = true ∧ (l.doorLocked g).rail.interlock = true := by
  unfold doorLocked
  dsimp only
  split
  · next h => exact ⟨rfl, h⟩
  · exact ⟨interlock_serviceOpen g, interlock_interlock g⟩

theorem serviceOpened_rail (h : l.rail.serviceOpen = false) : (l.serviceOpened g).rail = (l.doorLocked g).rail := by
  rw [serviceOpened_eq g h, postNotice_rail]
  rfl

theorem serviceOpened_sent (h : l.rail.serviceOpen = false) : (l.doorLocked g).out <+: (l.serviceOpened g).out := by
  rw [serviceOpened_eq g h]
  exact postNotice_sent g .interlock .nothing 0 ((l.doorLocked g).setCause causeInterlock)

theorem serviceOpened_cause (h : l.rail.serviceOpen = false) : (l.serviceOpened g).att.causes.getLsbD 2 = true := by
  rw [serviceOpened_eq g h, postNotice_att]
  simp [setCause, causeInterlock]

/-- The records as the door is CLOSED, its source not yet raised (R120). -/
def doorShut (l : Lib) : Lib :=
  ({ l with rail := { l.rail with serviceOpen := false } } : Lib).withdrawNotice g .interlock fun _ => true

theorem doorShut_only : PromptsOnly { l with rail := { l.rail with serviceOpen := false } } (l.doorShut g) :=
  withdrawNotice_only ..

theorem serviceClosed_eq (h : l.rail.serviceOpen = true) :
    l.serviceClosed g = (l.doorShut g).raiseColumns .serviceDoorClosed l.rail.haltedSpan := by
  unfold serviceClosed
  rw [if_pos h]
  rfl

end

/-! ## AUDIT-SPAN (R169) -/

section
variable (g : Settings) {l : Lib} {c : Span}

/-- A live request enters QUEUED as the request it was (R66). -/
theorem mem_enterQueued {r : Request} (h : r ∈ l.reqs.live) :
    { r with qseq := some (satAdd max32 l.reqs.queueSeq 1), state := .queued, stallLeft := some g.timers.stall }
      ∈ (l.enterQueued g r.tag).reqs.live := by
  have hqueue := mem_updReq (l := { l with reqs := { l.reqs with queueSeq := satAdd max32 l.reqs.queueSeq 1 } })
    (fun q => { q with qseq := some (satAdd max32 l.reqs.queueSeq 1) }) h
  exact mem_setReqState g .queued hqueue

/-- The audit that AUDIT-SPAN makes is in the table, in QUEUED at priority 1 over the columns (R169). -/
theorem createAudit_mem : ∃ r ∈ (l.createAudit g c true).2.reqs.live, r.kind = .audit ∧ r.origin = .internal
    ∧ r.bySpan = true ∧ r.state = .queued ∧ r.priority = 1
    ∧ r.cursor = some { next := c.lo, first := c.lo, last := c.hi } := by
  have hmem := createInternal_live g .audit .none 1 (fun r =>
    { r with cursor := some { next := c.lo, first := c.lo, last := c.hi }, bySpan := true }) l
  have hlast := List.mem_append_right l.reqs.live (List.mem_singleton_self
    { freshRequest g l.newTag .internal .audit .none 1 (satAdd max32 l.reqs.arrivals 1) with
      cursor := some { next := c.lo, first := c.lo, last := c.hi }, bySpan := true })
  rw [← hmem] at hlast
  exact ⟨_, mem_enterQueued g hlast, rfl, rfl, rfl, rfl, rfl, rfl⟩

theorem createAudit_rail (b : Bool) : (l.createAudit g c b).2.rail = l.rail := by
  unfold createAudit
  rw [enterQueued_rail]
  rfl

theorem createAudit_notes (b : Bool) : (l.createAudit g c b).2.notes = l.notes
    ∨ (l.createAudit g c b).2.notes = { l.notes with wake := true } :=
  setReqState_notes ..

theorem act_auditSpan (hlink : entryOf g.links 2 = .auditSpan) (hserving : l.serving = true)
    (hstands : l.auditStands c = false) (hfree : l.entryFree = true) :
    act g l { source := .serviceDoorClosed, drive := none, columns := some c, tag := none }
      = (l.createAudit g c true).2 := by
  have hlinked : linkOf g .serviceDoorClosed = .auditSpan := hlink
  simp [act, hlinked, hserving, hstands, hfree]

theorem act_auditSpan_none (hlink : entryOf g.links 2 = .auditSpan)
    (h : l.auditStands c = true ∨ l.entryFree = false) :
    act g l { source := .serviceDoorClosed, drive := none, columns := some c, tag := none } = l := by
  have hlinked : linkOf g .serviceDoorClosed = .auditSpan := hlink
  rcases h with h | h <;> simp [act, hlinked, h]

theorem auditStands_of_reqs {m : Lib} (h : m.reqs = l.reqs) (c : Span) : m.auditStands c = l.auditStands c := by
  unfold auditStands; rw [h]

theorem entryFree_of_reqs {m : Lib} (h : m.reqs = l.reqs) : m.entryFree = l.entryFree := by
  unfold entryFree; rw [h]

theorem serving_of_start {m : Lib} (h : m.start = l.start) : m.serving = l.serving := by
  unfold serving; rw [h]

end

end Lib

/-! ## The steps -/

section
variable {s : State}

theorem exec_serviceDoorOpened (hl : s.live) :
    exec .serviceDoorOpened s = .next (s.settled (s.found.serviceOpened s.set)) :=
  exec_event _ _ s hl rfl _ rfl

theorem exec_serviceDoorClosed (hl : s.live) :
    exec .serviceDoorClosed s = .next (s.settled (s.found.serviceClosed s.set)) :=
  exec_event _ _ s hl rfl _ rfl

/-- The closing of the door under the interlock: the step ends with what the action of its source leaves. -/
theorem exec_serviceDoorClosed_acts (hl : s.live) (hopen : s.found.rail.serviceOpen = true)
    (hlock : s.found.rail.interlock = true) {m : Lib}
    (hact : Lib.act s.set (s.found.doorShut s.set) { source := .serviceDoorClosed, drive := none
                                                     columns := s.found.rail.haltedSpan, tag := none } = m)
    (hrail : m.rail = (s.found.doorShut s.set).rail)
    (hnotes : m.notes = .none ∨ m.notes = { Notes.none with wake := true }) :
    exec .serviceDoorClosed s = .next { s with lib := { m with notes := .none } } := by
  have hclosed := Lib.serviceClosed_eq s.set hopen
  have hlocked : (s.found.doorShut s.set).rail.interlock = true := by
    rw [(Lib.doorShut_only s.set).rail]; exact hlock
  have hshut : (s.found.doorShut s.set).notes = .none := (Lib.doorShut_only s.set).notes.trans (found_notes s)
  have hraised : (s.found.serviceClosed s.set).notes = { Notes.none with raised :=
      [{ source := .serviceDoorClosed, drive := none, columns := s.found.rail.haltedSpan, tag := none }] } := by
    rw [hclosed, Lib.raiseColumns_notes, hshut]
    rfl
  have hquieted : ({ s.found.serviceClosed s.set with notes := .none } : Lib) = s.found.doorShut s.set := by
    rw [hclosed, ← hshut]
    rfl
  have hsettled : (s.found.serviceClosed s.set).settle s.set = { m with notes := .none } := by
    refine Lib.settle_interlock_raised s.set _ _ (by rw [hclosed]; exact hlocked)
      (by rw [hraised]; exact ⟨rfl, rfl, rfl⟩) (by rw [hraised]) m (by rw [hquieted, hact])
      (by rw [hrail, hlocked]) ?_ ?_
    · rcases hnotes with h | h <;> rw [h] <;> exact ⟨rfl, rfl, rfl⟩
    · rcases hnotes with h | h <;> rw [h] <;> rfl
  rw [exec_serviceDoorClosed hl]
  unfold State.settled
  rw [hsettled]

end

/-- Settles O30: the interlock gives HALT and asks again, and the closing raises its span and makes the audit. -/
theorem serviceDoorInterlock : Obligations.ServiceDoorInterlock := by
  unfold Obligations.ServiceDoorInterlock
  intro s hl
  refine ⟨fun hclosed => ?_, fun hopen => ?_, fun c hopen hlock hspan hserving hlink => ?_⟩
  · obtain ⟨hserviceOpen, hinterlock⟩ := Lib.doorLocked_rail s.set (l := s.found)
    have hrail := Lib.serviceOpened_rail s.set hclosed
    refine ⟨_, exec_serviceDoorOpened hl, by rw [hrail, hserviceOpen], by rw [hrail, hinterlock],
      Lib.serviceOpened_cause s.set hclosed, fun hunlocked x hfaulted hstate => ?_,
      fun hunlocked _ x q hquery hpurpose => ?_⟩
    · have hgiven := Lib.interlock_gives s.set
        (l := { s.found with rail := { s.found.rail with serviceOpen := true } }) (x := x) ⟨hfaulted, hstate⟩
      rw [← Lib.doorLocked_of_unlocked s.set hunlocked] at hgiven
      exact ⟨by rw [Lib.acc_of_rail hrail, hgiven.state],
        (Lib.serviceOpened_sent s.set hclosed).subset hgiven.sent⟩
    · have hawaits := Lib.interlock_awaits s.set
        (l := { s.found with rail := { s.found.rail with serviceOpen := true } }) hquery hpurpose
      rw [← Lib.doorLocked_of_unlocked s.set hunlocked] at hawaits
      obtain ⟨hasked, htimer⟩ := hawaits.of_acc s.set (Lib.acc_of_rail hrail x)
      exact ⟨hasked, htimer⟩
  · have honly := Lib.doorShut_only s.set (l := s.found)
    refine ⟨_, exec_serviceDoorClosed hl, ?_, ?_⟩
    · rw [Lib.serviceClosed_eq s.set hopen, Lib.raiseColumns_fixed]
      unfold Lib.doorShut
      rw [Lib.withdrawNotice_fixed]
      rfl
    · rw [Lib.serviceClosed_eq s.set hopen, Lib.raiseColumns_notes, honly.notes]
  · have honly := Lib.doorShut_only s.set (l := s.found)
    have hshut : (s.found.doorShut s.set).notes = .none := honly.notes.trans (found_notes s)
    have hstands := Lib.auditStands_of_reqs honly.reqs c
    have hfree := Lib.entryFree_of_reqs honly.reqs
    refine ⟨fun hnone hroom => ⟨_, exec_serviceDoorClosed_acts hl hopen hlock ?_ (Lib.createAudit_rail s.set true)
        ?_, Lib.createAudit_mem s.set (c := c)⟩,
      fun hkept => ⟨_, exec_serviceDoorClosed_acts hl hopen hlock ?_ rfl (.inl hshut), honly.reqs⟩⟩
    · rw [hspan]
      exact Lib.act_auditSpan s.set hlink ((Lib.serving_of_start honly.start).trans hserving) (hstands.trans hnone)
        (hfree.trans hroom)
    · rw [← hshut]
      exact Lib.createAudit_notes s.set true
    · rw [hspan]
      refine Lib.act_auditSpan_none s.set hlink ?_
      rwa [hstands, hfree]

end Sys2Proof.Machine
end

section
/-! The host messages in the prompt slots: Post Message, Withdraw Message, and Query Prompt of an ANSWERED message
(R126, R142 to R144). -/

namespace Sys2Proof.Machine

namespace Lib

/-! ## The prompts by slot and by posting number -/

section
variable {l : Lib} {k n : Nat} {p : Prompt}

theorem mem_numbered : (k, p) ∈ l.numbered ↔ k < 16 ∧ l.prompts.slots.getD k none = some p := by
  unfold numbered
  simp only [List.mem_filterMap, List.mem_range, Option.map_eq_some_iff, Prod.mk.injEq, Config.promptSlots]
  constructor
  · rintro ⟨j, hj, q, hq, rfl, rfl⟩
    exact ⟨hj, hq⟩
  · rintro ⟨hk, hp⟩
    exact ⟨k, hk, p, hp, rfl, rfl⟩

theorem mem_presentationOrder {x : Nat × Prompt} :
    x ∈ l.presentationOrder ↔ x ∈ l.numbered ∧ x.2.isPosted = true := by
  unfold presentationOrder
  rw [(perm_sortBy promptBefore _).mem_iff, List.mem_filter]

/-- The slot that a posting number finds: it is POSTED and bears the number (R125). -/
structure PostedAt (l : Lib) (n k : Nat) (p : Prompt) : Prop where
  lt : k < 16
  slot : l.prompts.slots.getD k none = some p
  isPosted : p.isPosted = true
  posting : p.posting = n

theorem postedAt_of_posted? (h : l.posted? n = some (k, p)) : l.PostedAt n k p := by
  obtain ⟨hlt, hslot⟩ := mem_numbered.1 (List.mem_of_find?_eq_some h)
  obtain ⟨hposted, hposting⟩ : p.isPosted = true ∧ p.posting = n := by simpa using List.find?_some h
  exact ⟨hlt, hslot, hposted, hposting⟩

theorem lt_of_promptSlot (h : l.prompts.slots.getD k none = some p) : k < l.prompts.slots.length := by
  by_contra hk
  rw [List.getD_eq_getElem?_getD, List.getElem?_eq_none (Nat.le_of_not_lt hk)] at h
  cases h

/-! ## A slot set, and the panel brought up to date -/

theorem promptSlot_setPrompt_self (q : Option Prompt) (h : k < l.prompts.slots.length) :
    (l.setPrompt k q).prompts.slots.getD k none = q := by
  simp [List.getD_eq_getElem?_getD, h]

/-- A presentation marks the presented posting alone: a slot that holds no POSTED prompt is as it was (R130). -/
theorem presentFirst_slot (h : ∀ p, l.prompts.slots.getD k none = some p → p.isPosted = false) :
    l.presentFirst.prompts.slots.getD k none = l.prompts.slots.getD k none := by
  unfold presentFirst
  split
  · next x xs horder =>
    obtain ⟨hmem, hposted⟩ := mem_presentationOrder.1 (horder ▸ List.mem_cons_self : x ∈ l.presentationOrder)
    have hne : x.1 ≠ k := by
      intro hk
      rw [h x.2 (hk ▸ (mem_numbered.1 hmem).2)] at hposted
      cases hposted
    simp [display, List.getD_eq_getElem?_getD, hne]
  · rfl

theorem presentFirst_waits (l : Lib) : l.presentFirst.prompts.waits = l.prompts.waits := by
  unfold presentFirst
  split <;> rfl

/-! ## A slot emptied, and a slot filled -/

theorem emptySlot_slot (h : l.prompts.slots.getD k none = some p) :
    (l.emptySlot k).prompts.slots.getD k none = none := by
  have hset := promptSlot_setPrompt_self none (lt_of_promptSlot h)
  unfold emptySlot
  rw [h]
  dsimp only
  split
  · rw [presentFirst_slot (fun q hq => by rw [hset] at hq; cases hq), hset]
  · exact hset

theorem emptySlot_waits (k : Nat) (l : Lib) : (l.emptySlot k).prompts.waits = l.prompts.waits := by
  unfold emptySlot
  split
  · rfl
  · dsimp only
    split
    · exact presentFirst_waits _
    · rfl

/-- With no request prompt waiting a FREE slot is offered to none (R140). -/
theorem offerSlot_of_no_waits (g : Settings) (h : l.prompts.waits = []) : l.offerSlot g = l := by
  unfold offerSlot
  rw [h]
  cases l.freePromptSlot <;> rfl

/-- A prompt withdrawn with no request prompt waiting leaves its slot FREE (R126). -/
theorem withdrawSlot_slot (g : Settings) (h : l.prompts.slots.getD k none = some p) (hwaits : l.prompts.waits = []) :
    (l.withdrawSlot g k).prompts.slots.getD k none = none := by
  unfold withdrawSlot
  rw [h]
  dsimp only
  rw [offerSlot_of_no_waits g ((emptySlot_waits k l).trans hwaits), emptySlot_slot h]

theorem postAt_counter (g : Settings) (d : Draft) : (l.postAt g k d).prompts.counter = l.posting := by
  unfold postAt
  dsimp only
  split
  · rfl
  · split <;> rfl

end

end Lib

/-! ## Post Message -/

theorem Announce.ofCode_eq_persistent_iff {n : Nat} (h : n ≤ 2) : Announce.ofCode n = .persistent ↔ n = 2 := by
  unfold Announce.ofCode
  split_ifs <;> simp <;> omega

theorem mode_le_of_messageOk {f : MessageBlock} (h : messageOk f = true) : f.mode ≤ 2 := by
  simp only [messageOk, Bool.and_eq_true, decide_eq_true_eq] at h
  exact h.1.2

section
variable {s : State} {k : Nat} {p : Prompt}

theorem exec_postMessage {f : MessageBlock} (hl : s.live) (hs : s.serving) (hok : messageOk f = true)
    (hfree : s.lib.freePromptSlot = some k) :
    exec (.postMessage f) s = .next (s.after s.set (s.lib.begin.postAt s.set k (messageDraft f))
      (.good (messageFields (s.lib.begin.postAt s.set k (messageDraft f)) k))) := by
  refine exec_good_quiet _ _ s hl rfl _ _ _ ?_ (Lib.postAt_only s.set k _ s.lib.begin).notes
  have hfree' : s.lib.begin.freePromptSlot = some k := hfree
  unfold cmdPostMessage
  rw [gated_checks_of_forall hs _ _ _ _ (by simp [hok]), hfree']

theorem exec_postMessage_full {f : MessageBlock} (hl : s.live) (hs : s.serving) (hok : messageOk f = true)
    (hfull : s.lib.freePromptSlot = none) :
    exec (.postMessage f) s = .next (s.after s.set s.lib.begin (.check .promptTableFull .none)) := by
  refine exec_refuse _ _ s hl rfl _ _ ?_
  have hfull' : s.lib.begin.freePromptSlot = none := hfull
  unfold cmdPostMessage
  rw [gated_checks_of_forall hs _ _ _ _ (by simp [hok]), hfull']

/-! ## Withdraw Message, and the reading of an answer -/

theorem exec_withdrawMessage (hl : s.live) (hs : s.serving) (hk : k < 16)
    (hp : s.lib.prompts.slots.getD k none = some p) (hkind : p.kind = .hostMessage) :
    exec (.withdrawMessage k p.posting) s
      = .next (s.after s.set (s.lib.begin.withdrawSlot s.set k) (.good [])) := by
  refine exec_good_quiet _ _ s hl rfl _ _ _ ?_ (Lib.withdrawSlot_only s.set k s.lib.begin).notes
  unfold cmdWithdrawMessage
  rw [Lib.begin_prompts, hp, gated_checks_of_forall hs _ _ _ _ (by simp [Config.promptSlots, hk, hkind])]

theorem exec_withdrawMessage_unknown {n : Nat} (hl : s.live) (hs : s.serving) (hk : k < 16)
    (hp : s.lib.prompts.slots.getD k none = some p) (hn : n ≠ p.posting) :
    exec (.withdrawMessage k n) s = .next (s.after s.set s.lib.begin (.check .promptUnknown (.prompt k))) := by
  refine exec_refuse _ _ s hl rfl _ _ ?_
  unfold cmdWithdrawMessage
  rw [Lib.begin_prompts, hp, gated_serving _ _ _ s.lib.begin _ hs]
  simp [Config.promptSlots, hk, Ne.symm hn]

theorem exec_queryPrompt_answered (hl : s.live) (hs : s.serving) (hk : k < 16)
    (hp : s.lib.prompts.slots.getD k none = some p) (hanswer : p.answer ≠ none) :
    exec (.queryPrompt k) s
      = .next (s.after s.set (s.lib.begin.withdrawSlot s.set k) (.good (postedFields p))) := by
  refine exec_good_quiet _ _ s hl rfl _ _ _ ?_ (Lib.withdrawSlot_only s.set k s.lib.begin).notes
  have hanswered : answered (some p) = true := by simpa [answered, Option.isSome_iff_ne_none] using hanswer
  unfold cmdQueryPrompt
  dsimp only
  rw [gated_checks_of_forall hs _ _ _ _ (by simp [Config.promptSlots, hk]), Lib.begin_prompts, hp,
    if_pos hanswered]
  rfl

end

/-- Settles O47: the slot is that of the posting, or of the withdrawal; every other record is as the prompt
operations leave it. -/
theorem hostMessageSlot : Obligations.HostMessageSlot := by
  unfold Obligations.HostMessageSlot
  constructor
  · intro f s hl hs hok hshape
    refine ⟨fun k hfree => ?_, exec_postMessage_full hl hs hok⟩
    have hlt : k < s.lib.begin.prompts.slots.length := by
      rw [Lib.begin_prompts, Lib.promptSlots_length_of_shape hshape]
      exact Lib.freePromptSlot_lt hfree
    obtain ⟨⟨shown, hslot⟩, hothers⟩ := Lib.postAt_slot s.set k (messageDraft f) s.lib.begin hlt
    have hexec := exec_postMessage hl hs hok hfree
    rw [messageFields, Lib.postAt_counter] at hexec
    refine ⟨_, _, hexec, Lib.postAt_only s.set k _ s.lib.begin, hslot, rfl, rfl, rfl, rfl, rfl, rfl, ?_, ?_, ?_,
      hothers⟩
    · simp only [Lib.newPrompt, messageDraft]
      split <;> rfl
    · rfl
    · simp [Lib.newPrompt, messageDraft, Announce.ofCode_eq_persistent_iff (mode_le_of_messageOk hok)]
  · intro k p s hl hs hk _ hp hwaits frees
    have hfrees : ∀ {c : Instr} {data : List Field},
        exec c s = .next (s.after s.set (s.lib.begin.withdrawSlot s.set k) (.good data)) → frees c data :=
      fun hexec => ⟨_, hexec, Lib.withdrawSlot_only s.set k s.lib.begin,
        Lib.withdrawSlot_slot (l := s.lib.begin) s.set hp hwaits⟩
    exact ⟨fun hkind => hfrees (exec_withdrawMessage hl hs hk hp hkind),
      fun hanswer => hfrees (exec_queryPrompt_answered hl hs hk hp hanswer),
      fun n hn => exec_withdrawMessage_unknown hl hs hk hp hn⟩

end Sys2Proof.Machine
end

section
/-! The panel's keys and their REPLYs (R127, R133, R206), and what ACCEPT, REFUSE and the deadlines of the prompts
answer or end (R135, R136, R138, R139). -/

namespace Sys2Proof.Machine

/-! ## A key and its REPLY -/

section
variable {c : Instr} {key : KeyName} {n : Nat} {s : State}

theorem exec_key (hl : s.live) (hn : n ≤ 65535) (hc : exec c s = keyMeaning key n s) :
    exec c s = .next { s with
      lib := ((s.found.keyChange key s.set n).settle s.set).send (.reply n key (s.found.keyResult key n)) } := by
  have hlive : s.set.warned = false := hl
  have hok : postingOk n = true := decide_eq_true hn
  rw [hc, keyMeaning, if_pos hok, keyStep, if_neg (by rw [hlive]; exact Bool.false_ne_true)]
  rfl

theorem exec_key_taken {x : Nat × Prompt} (hl : s.live) (hn : n ≤ 65535) (hc : exec c s = keyMeaning key n s)
    (hx : s.found.posted? n = some x) (hvalid : keyValid key x.2 = true) :
    exec c s = .next { s with lib := ((s.found.keyAct key s.set x).settle s.set).send (.reply n key .taken) } := by
  rw [exec_key hl hn hc]
  simp only [Lib.keyChange, Lib.keyResult, hx, if_pos hvalid]

/-- A key that leaves nothing to do. -/
theorem exec_key_quiet {x : Nat × Prompt} {l : Lib} (hl : s.live) (hn : n ≤ 65535)
    (hc : exec c s = keyMeaning key n s) (hx : s.found.posted? n = some x) (hvalid : keyValid key x.2 = true)
    (hact : s.found.keyAct key s.set x = l) (hnotes : l.notes = s.found.notes) :
    exec c s = .next { s with lib := l.send (.reply n key .taken) } := by
  rw [exec_key_taken hl hn hc hx hvalid, hact, Lib.settle_quiet _ _ (hnotes.trans (found_notes s))]

end

namespace Lib

section
variable (key : KeyName) (n : Nat) (l : Lib)

/-- The result of a key by the posting it names (R133). -/
theorem keyResult_iff : (l.keyResult key n = .gone ↔ l.posted? n = none)
    ∧ (l.keyResult key n = .taken ↔ ∃ x, l.posted? n = some x ∧ keyValid key x.2 = true)
    ∧ (l.keyResult key n = .notValid ↔ ∃ x, l.posted? n = some x ∧ ¬ keyValid key x.2 = true) := by
  unfold keyResult
  cases l.posted? n with
  | none => simp
  | some x => cases h : keyValid key x.2 <;> simp [h]

/-- A key that is not TAKEN changes no record (R133). -/
theorem keyChange_of_not_taken (g : Settings) (h : l.keyResult key n ≠ .taken) : l.keyChange key g n = l := by
  obtain ⟨-, htaken, -⟩ := keyResult_iff key n l
  rw [Ne, htaken] at h
  unfold keyChange
  cases hx : l.posted? n with
  | none => rfl
  | some x => exact if_neg fun hvalid => h ⟨x, hx, hvalid⟩

end

end Lib

/-! ## The table of R127 -/

theorem keyValid_next_iff (p : Prompt) : keyValid .next p = true ↔ True := by simp [keyValid]

theorem PromptKind.takesAccept_iff (k : PromptKind) : k.takesAccept = true ↔
    k ∈ [.accessorFault, .driveAttention, .hostMessage, .unknownVolume, .volumeMissing, .libraryFull,
      .cleanerExhausted, .scratchLow, .queueStall, .cleaningDue, .periodDue] := by
  cases k <;> decide

theorem PromptKind.takesRefuse_iff (k : PromptKind) :
    k.takesRefuse = true ↔ k ∈ [.manualMount, .stationInsert, .hostMessage] := by
  cases k <;> decide

theorem keyValid_accept_iff (p : Prompt) : keyValid .accept p = true ↔ p.isRequest = false ∧
    p.kind ∈ [.accessorFault, .driveAttention, .hostMessage, .unknownVolume, .volumeMissing, .libraryFull,
      .cleanerExhausted, .scratchLow, .queueStall, .cleaningDue, .periodDue] := by
  rw [← PromptKind.takesAccept_iff]
  simp [keyValid, and_comm]

theorem keyValid_refuse_iff (p : Prompt) :
    keyValid .refuse p = true ↔ p.kind ∈ [.manualMount, .stationInsert, .hostMessage] :=
  p.kind.takesRefuse_iff

theorem keyValid_done_iff (p : Prompt) :
    keyValid .done p = true ↔ p.isRequest = true ∧ p.kind = .driveAttention := by
  simp [keyValid, and_comm]

/-- The REPLY of a key that answers the postings of `valid` (R133). -/
theorem keyReplied {c : Instr} {key : KeyName} {n : Nat} {s : State} {valid : Prompt → Prop} (hl : s.live)
    (hn : n ≤ 65535) (hc : exec c s = keyMeaning key n s) (hvalid : ∀ p, keyValid key p = true ↔ valid p) :
    ∃ (t : State) (result : ReplyResult), exec c s = .next t
      ∧ t.lib.out.getLast? = some (.reply n key result)
      ∧ (result = .gone ↔ s.found.posted? n = none)
      ∧ (result = .taken ↔ ∃ x, s.found.posted? n = some x ∧ valid x.2)
      ∧ (result = .notValid ↔ ∃ x, s.found.posted? n = some x ∧ ¬ valid x.2)
      ∧ (result ≠ .taken →
          t = { s with lib := { s.found with out := s.found.out ++ [.reply n key result] } }) := by
  obtain ⟨hgone, htaken, hnotValid⟩ := Lib.keyResult_iff key n s.found
  simp only [hvalid] at htaken hnotValid
  refine ⟨_, _, exec_key hl hn hc, List.getLast?_concat .., hgone, htaken, hnotValid, fun h => ?_⟩
  rw [Lib.keyChange_of_not_taken key n _ _ h, Lib.settle_quiet _ _ (found_notes s)]
  rfl

/-- Settles O48, key by key: each answers the postings of its column of R127's table. -/
theorem keyReplies : Obligations.KeyReplies := by
  unfold Obligations.KeyReplies
  intro n s hl hn valid replies
  exact ⟨keyReplied hl hn rfl keyValid_next_iff, keyReplied hl hn rfl keyValid_accept_iff,
    keyReplied hl hn rfl keyValid_refuse_iff, keyReplied hl hn rfl keyValid_done_iff⟩

/-! ## A host message answered -/

/-- The prompt of a host message that has been answered: its timers are stopped (R139). -/
def Prompt.answeredBy (answer : Answer) (p : Prompt) : Prompt :=
  { p with answer := some answer, deadline := none, deadlineLeft := none, reannounceLeft := none }

namespace Lib

section
variable {l : Lib} {n k : Nat} {p : Prompt}

theorem answerMessage_only (x : Nat × Prompt) (answer : Answer) (l : Lib) :
    PromptsOnly (l.setCause causeMessageAnswered) (l.answerMessage x answer) := by
  have hset : PromptsOnly (l.setCause causeMessageAnswered)
      ((l.setPrompt x.1 (some (x.2.answeredBy answer))).setCause causeMessageAnswered) := rfl
  unfold answerMessage
  dsimp only
  split
  · exact hset.trans (presentFirst_only _)
  · exact hset

/-- An ANSWERED message stands in its slot as it was answered, whatever is presented after it (R139). -/
theorem answerMessage_slot (answer : Answer) (h : l.prompts.slots.getD k none = some p) :
    (l.answerMessage (k, p) answer).prompts.slots.getD k none = some (p.answeredBy answer) := by
  have hset : ((l.setPrompt k (some (p.answeredBy answer))).setCause causeMessageAnswered).prompts.slots.getD k none
      = some (p.answeredBy answer) := promptSlot_setPrompt_self _ (lt_of_promptSlot h)
  unfold answerMessage
  dsimp only
  split
  · refine (presentFirst_slot fun q hq => ?_).trans hset
    cases hset.symm.trans hq
    rfl
  · exact hset

theorem answerMessage_cause (x : Nat × Prompt) (answer : Answer) (l : Lib) :
    (l.answerMessage x answer).att.causes.getLsbD 1 = true := by
  rw [(answerMessage_only x answer l).att]
  simp [causeMessageAnswered]

theorem messageExpired_of_due (hp : l.posted? n = some (k, p)) (hkind : p.kind = .hostMessage)
    (hdue : p.deadlineLeft = some 0) : l.messageExpired n = l.answerMessage (k, p) .timeout := by
  simp [messageExpired, hp, hkind, hdue, isDue]

/-! ## A request that a prompt ends -/

/-- The request is DONE, with the code fixed before, or else with this one (R88, R89). -/
theorem complete_done (g : Settings) {t : Nat} (code : Code) {r : Request} (hr : l.req? t = some r)
    (hdone : r.state ≠ .done) (horigin : r.origin = .link) :
    ∃ q, (l.complete g t code).req? t = some q ∧ q.state = .done ∧ q.code = some (r.code.getD code) :=
  ⟨_, req?_complete_self g t code l r hr hdone horigin, rfl, rfl⟩

theorem refusePrompt_of_request (g : Settings) {t : Nat} (hkind : p.kind ≠ .hostMessage)
    (htag : p.subject.tag = some t) : l.refusePrompt g (k, p) = l.complete g t .operatorRefused := by
  simp [refusePrompt, hkind, htag]

theorem manualExpired_of_due (g : Settings) {t : Nat} (hp : l.posted? n = some (k, p))
    (hkind : p.kind.hasManualDeadline = true) (htag : p.subject.tag = some t) (hdue : p.deadlineLeft = some 0) :
    l.manualExpired g n = (l.complete g t .promptTimeout).raiseRequest .promptTimeout t := by
  simp [manualExpired, hp, hkind, htag, hdue, isDue]

end

end Lib

/-- Settles O49: a host message by `answerMessage`, the request of a manual prompt by its completion. -/
theorem promptsAnswered : Obligations.PromptsAnswered := by
  unfold Obligations.PromptsAnswered
  constructor
  · intro n k p s hl _ hn hp hkind hnotice answers
    have honly := fun answer => Lib.answerMessage_only (k, p) answer s.found
    have hanswers : ∀ (c : Instr) (answer : Answer) (l : Lib), exec c s = .next { s with lib := l } →
        l = { s.found.answerMessage (k, p) answer with out := l.out } → answers c answer := by
      intro c answer l hexec hanswered
      rw [hanswered] at hexec
      exact ⟨_, hexec, Lib.answerMessage_slot answer (Lib.postedAt_of_posted? hp).slot,
        Lib.answerMessage_cause (k, p) answer s.found, (honly answer).cat, (honly answer).reqs⟩
    refine ⟨hanswers _ _ _ (exec_key_quiet hl hn rfl hp ?_ (if_pos hkind) (honly _).notes) rfl,
      hanswers _ _ _ (exec_key_quiet hl hn rfl hp ?_ (if_pos hkind) (honly _).notes) rfl,
      fun hdue => hanswers _ _ _ (exec_event_quiet _ _ s hl rfl _ (Lib.messageExpired_of_due hp hkind hdue)
        ((honly _).notes.trans (found_notes s))) rfl⟩
    · exact (keyValid_accept_iff p).2 ⟨hnotice, by simp [hkind]⟩
    · exact (keyValid_refuse_iff p).2 (by simp [hkind])
  · intro n k tag p r s hl hn hp hkind _ htag hr hmanual horigin hcode
    have hdone : r.state ≠ .done := by rw [hmanual]; decide
    have hended := fun code => Lib.complete_done s.set code hr hdone horigin
    rw [hcode] at hended
    have hother : p.kind ≠ .hostMessage := by rcases hkind with h | h <;> rw [h] <;> decide
    constructor
    · obtain ⟨q, hq, hstate, hcode⟩ := hended .operatorRefused
      refine ⟨_, q, exec_key_taken hl hn rfl hp ?_, ?_, hstate, hcode⟩
      · exact (keyValid_refuse_iff p).2 (by rcases hkind with h | h <;> simp [h])
      · exact (congrArg (·.req? tag) (Lib.refusePrompt_of_request s.set hother htag)).trans hq
    · intro hdue
      obtain ⟨q, hq, hstate, hcode⟩ := hended .promptTimeout
      have hdeadline : p.kind.hasManualDeadline = true := by rcases hkind with h | h <;> rw [h] <;> rfl
      exact ⟨(s.found.complete s.set tag .promptTimeout).raiseRequest .promptTimeout tag, q,
        exec_event _ _ s hl rfl _ (Lib.manualExpired_of_due s.set hp hdeadline htag hdue), hq, hstate, hcode,
        List.mem_append_right _ (List.mem_singleton_self _)⟩

end Sys2Proof.Machine
end

section
/-! What the panel is shown: NEXT (R134, R206), the re-announce timer (R132) and HELLO; and DONE of a DRIVE-ATTENTION
(R58, R137). -/

namespace Sys2Proof.Machine

namespace Lib

section
variable {l : Lib} {n : Nat}

/-! ## NEXT -/

/-- A NEXT whose posting no NEXT before has named steps from it (R134). -/
theorem stepFrom_of_named (h : l.prompts.stepped ≠ some n ∨ l.prompts.presented = none) : l.stepFrom n = n := by
  unfold stepFrom
  rcases h with h | h
  · rw [if_neg h]
  · simp [h]

/-- A NEXT taken again steps from the presented posting (R206, log 30). -/
theorem stepFrom_of_presented {m : Nat} (hstepped : l.prompts.stepped = some n)
    (hpresented : l.prompts.presented = some m) : l.stepFrom n = m := by
  simp [stepFrom, hstepped, hpresented]

theorem stepPast_of_shown {x : Nat × Prompt} (h : l.stepTo? n = some x)
    (hpresented : l.prompts.presented = some x.2.posting) : l.stepPast n = l.noteStep n := by
  simp only [stepPast, h, if_pos hpresented]

theorem stepPast_of_other {x : Nat × Prompt} (h : l.stepTo? n = some x)
    (hpresented : l.prompts.presented ≠ some x.2.posting) : l.stepPast n = (l.display x false).noteStep n := by
  simp only [stepPast, h, if_neg hpresented]

theorem stepPast_only (n : Nat) (l : Lib) : PromptsOnly l (l.stepPast n) := by
  unfold stepPast
  split
  · split
    · exact noteStep_only n l
    · exact (display_only _ false l).trans (noteStep_only n _)
  · exact .refl l

theorem stepPast_prompts {x : Nat × Prompt} (h : l.stepTo? n = some x) :
    (l.stepPast n).prompts.presented = some x.2.posting ∧ (l.stepPast n).prompts.stepped = some n := by
  by_cases hpresented : l.prompts.presented = some x.2.posting
  · rw [stepPast_of_shown h hpresented]
    exact ⟨hpresented, rfl⟩
  · rw [stepPast_of_other h hpresented]
    exact ⟨rfl, rfl⟩

/-! ## The re-announce timer -/

/-- A presented posting whose re-announce timer has run out is shown once more with the alert (R132). -/
theorem reAnnounced_of_presented (g : Settings) {k : Nat} {p q : Prompt} (hp : l.posted? n = some (k, p))
    (hdue : p.reannounceLeft = some 0) (hpresented : l.prompts.presented = some n)
    (hq : { p with reannounceLeft := some g.timers.reannounce, announced := true } = q) :
    l.reAnnounced g n = { l with
      prompts := { l.prompts with
        slots := l.prompts.slots.set k (some q), presented := some p.posting, lastSent := some ⟨q, true⟩ }
      out := l.out ++ [.present ⟨q, true⟩] } := by
  obtain rfl := (postedAt_of_posted? hp).posting
  simp [reAnnounced, hp, hdue, hpresented, isDue, display, send, hq]

/-! ## A drive's reel taken out by hand -/

theorem clearAttentionPrompt_only (g : Settings) (d : Nat) (l : Lib) : PromptsOnly l (l.clearAttentionPrompt g d) := by
  unfold clearAttentionPrompt
  exact PromptsOnly.trans (m := { l with prompts := _ }) rfl (withdrawWhere_only g _ _)

theorem leaveDrives_of_unserved {t : Nat} (h : ∀ d, (l.drive d).serving ≠ some t) : l.leaveDrives t = l := by
  have hnone : l.servingDrives t = [] := List.filter_eq_nil_iff.2 fun d _ => by simp [h d]
  unfold leaveDrives
  rw [hnone]
  rfl

theorem ended_drives (g : Settings) {t : Nat} (c : Code) (h : ∀ d, (l.drive d).serving ≠ some t) :
    (l.ended g t c).drives = l.drives := by
  simp [ended, leaveDrives_of_unserved h]

/-- A completed request that no drive serves leaves the drives alone. -/
theorem complete_drives (g : Settings) {t : Nat} (c : Code) {r : Request} (hr : l.req? t = some r)
    (hdone : r.state ≠ .done) (horigin : r.origin = .link) (h : ∀ d, (l.drive d).serving ≠ some t) :
    (l.complete g t c).drives = l.drives := by
  rw [complete_of_link g c hr hdone horigin]
  simp only [setCause_drives, releaseHold_drives]
  split <;> simp [ended_drives g c h]

/-- A completion that is no refusal accrues nothing (R156). -/
theorem complete_acct (g : Settings) {t : Nat} (c : Code) {r : Request} (hr : l.req? t = some r)
    (hdone : r.state ≠ .done) (horigin : r.origin = .link) (hcode : r.code.getD c ≠ .operatorRefused) :
    (l.complete g t c).acct = l.acct := by
  rw [complete_of_link g c hr hdone horigin, if_neg hcode]
  simp [ended]

theorem declareMissing_raises (g : Settings) {s : Serial} (c : Cell) {v : Volume} (hv : l.vol? s = some v)
    (hpresent : v.state ≠ .missing) :
    ∃ columns, { source := .volumeMissing, drive := none, columns := columns, tag := none, volume := some s }
      ∈ (l.declareMissing g s c).notes.raised := by
  unfold declareMissing
  simp only [hv, if_neg hpresent, postNotice_notes, raiseMissing, raise_notes]
  exact ⟨_, List.mem_append_right _ (List.mem_singleton_self _)⟩

/-- One more manual action in an account's total that is not at its maximum (R156, R157). -/
theorem account?_accrue_addManual {a : Account} {m : Nat} (ha : l.account? m = some a) (hmax : a.manual < 65535) :
    (l.accrue (some m) Account.addManual).account? m
      = some { a with manual := a.manual + 1, stamp := (a.stamp + 1) % 65536 } := by
  have hfits : a.manual < max16 := hmax
  unfold accrue
  dsimp only
  rw [account?_updAcct_self m _ l (by intro a; rfl), ha]
  simp [Account.addManual, Account.stamped, addTotal, hfits]

end

end Lib

/-- An OFFLINE drive whose reel has been taken out (R58). -/
def Drive.emptied (v : Drive) : Drive :=
  { v with reel := .none, state := .offline, offPending := false, serving := none }

namespace Lib

/-- The reel of a FAULTED drive taken out by hand: its volume is MISSING, and the drive is empty (R58). -/
def reelTaken (g : Settings) (serial : Serial) (d : Nat) (l : Lib) : Lib :=
  (l.declareMissing g serial (.empty none)).updDrive d Drive.emptied

/-- The request of the tag, with its code fixed, waits on the drive, which alone serves it and holds its volume. -/
structure WaitsOn (l : Lib) (d t : Nat) (serial : Serial) (c : Code) (r : Request) (v : Volume) : Prop where
  lt : d < l.drives.length
  req : l.req? t = some r
  working : r.state ≠ .done
  origin : r.origin = .link
  code : r.code = some c
  unrefused : c ≠ .operatorRefused
  serving : (l.drive d).serving = some t
  alone : ∀ e, e ≠ d → (l.drive e).serving ≠ some t
  reel : (l.drive d).reel = .recorded serial
  vol : l.vol? serial = some v
  place : v.state = .onDrive d

section
variable {l : Lib} {d t : Nat} {serial : Serial} {c : Code} {r : Request} {v : Volume}

theorem WaitsOn.accrue (h : l.WaitsOn d t serial c r v) (m : Option Nat) (f : Account → Account) :
    (l.accrue m f).WaitsOn d t serial c r v := by
  have hdrive := fun e => drive_of_drives (accrue_drives m f l) e
  exact
    { lt := by rw [accrue_drives]; exact h.lt
      req := (req?_of_live (congrArg RequestTable.live (accrue_reqs m f l)) t).trans h.req
      working := h.working, origin := h.origin, code := h.code, unrefused := h.unrefused
      serving := by rw [hdrive]; exact h.serving
      alone := fun e he => by rw [hdrive]; exact h.alone e he
      reel := by rw [hdrive]; exact h.reel
      vol := (vol?_of_vols (congrArg Catalogue.vols (accrue_cat m f l)) serial).trans h.vol
      place := h.place }

theorem WaitsOn.present (h : l.WaitsOn d t serial c r v) : v.state ≠ .missing := by
  rw [h.place]
  exact VolState.noConfusion

theorem reelTaken_drives (g : Settings) (serial : Serial) (d : Nat) (l : Lib) :
    (l.reelTaken g serial d).drives = l.drives.modify d Drive.emptied :=
  congrArg (List.modify · d Drive.emptied) (declareMissing_drives g serial (.empty none) l)

theorem WaitsOn.reelTaken_req? (h : l.WaitsOn d t serial c r v) (g : Settings) :
    (l.reelTaken g serial d).req? t = some r :=
  (req?_of_live (congrArg RequestTable.live (declareMissing_reqs g serial (.empty none) l)) t).trans h.req

theorem WaitsOn.reelTaken_unserved (h : l.WaitsOn d t serial c r v) (g : Settings) (e : Nat) :
    ((l.reelTaken g serial d).drive e).serving ≠ some t := by
  obtain ⟨hself, hothers⟩ := drive_of_modify (reelTaken_drives g serial d l) h.lt
  by_cases he : e = d
  · rw [he, hself]
    exact (Option.some_ne_none t).symm
  · rw [hothers e he]
    exact h.alone e he

/-- The records after DONE: the reel taken, the request completed and the prompts of the drive withdrawn (R58). -/
def attended (g : Settings) (serial : Serial) (d t : Nat) (l : Lib) : Lib :=
  ((l.reelTaken g serial d).complete g t .driveFault).clearAttentionPrompt g d

theorem WaitsOn.attentionDone_eq (h : l.WaitsOn d t serial c r v) (g : Settings) :
    l.attentionDone g d false = l.attended g serial d t := by
  have hserving : ((l.declareMissing g serial (.empty none)).drive d).serving = some t := by
    rw [drive_of_drives (declareMissing_drives g serial (.empty none) l)]
    exact h.serving
  unfold attentionDone
  simp only [h.reel, hserving, Bool.false_eq_true, if_false]
  rfl

theorem attended_only (g : Settings) (serial : Serial) (d t : Nat) (l : Lib) :
    PromptsOnly ((l.reelTaken g serial d).complete g t .driveFault) (l.attended g serial d t) :=
  clearAttentionPrompt_only g d _

theorem WaitsOn.attended_drives (h : l.WaitsOn d t serial c r v) (g : Settings) :
    (l.attended g serial d t).drives = l.drives.modify d Drive.emptied := by
  rw [(attended_only g serial d t l).drives,
    complete_drives g .driveFault (h.reelTaken_req? g) h.working h.origin (h.reelTaken_unserved g), reelTaken_drives]

theorem WaitsOn.attended_acct (h : l.WaitsOn d t serial c r v) (g : Settings) :
    (l.attended g serial d t).acct = l.acct := by
  have hcode : r.code.getD .driveFault ≠ .operatorRefused := by rw [h.code]; exact h.unrefused
  rw [(attended_only g serial d t l).acct,
    complete_acct g .driveFault (h.reelTaken_req? g) h.working h.origin hcode]
  exact declareMissing_acct g serial (.empty none) l

theorem WaitsOn.attended_req? (h : l.WaitsOn d t serial c r v) (g : Settings) :
    ∃ q, (l.attended g serial d t).req? t = some q ∧ q.state = .done ∧ q.code = some c := by
  obtain ⟨q, hq, hstate, hcode⟩ := complete_done g .driveFault (h.reelTaken_req? g) h.working h.origin
  rw [h.code] at hcode
  have hlive := congrArg RequestTable.live (attended_only g serial d t l).reqs
  exact ⟨q, (req?_of_live hlive t).trans hq, hstate, hcode⟩

theorem WaitsOn.attended_vol? (h : l.WaitsOn d t serial c r v) (g : Settings) :
    ∃ w, (l.attended g serial d t).vol? serial = some w ∧ w.state = .missing ∧ w.homeCell = none := by
  obtain ⟨f, hf⟩ := vol?_complete g t .driveFault serial (l.reelTaken g serial d)
  have htaken : (l.reelTaken g serial d).vol? serial = some { v with state := .missing, homeCell := none } :=
    vol?_declareMissing_self g serial (.empty none) l v h.vol h.present
  rw [htaken] at hf
  exact ⟨_, (vol?_of_promptsOnly (attended_only g serial d t l) serial).trans hf, rfl, rfl⟩

theorem WaitsOn.attended_raises (h : l.WaitsOn d t serial c r v) (g : Settings) :
    ∃ columns, { source := .volumeMissing, drive := none, columns := columns, tag := none, volume := some serial }
      ∈ (l.attended g serial d t).notes.raised := by
  obtain ⟨columns, hraised⟩ := declareMissing_raises g (.empty none) h.vol h.present
  refine ⟨columns, ?_⟩
  rw [(attended_only g serial d t l).notes]
  exact (complete_raised g .driveFault (h.reelTaken_req? g) h.working h.origin).subset hraised

end

end Lib

/-! ## The steps -/

section
variable {n k : Nat} {p : Prompt} {s : State}

/-- NEXT shows the posting it steps to (R134). -/
theorem exec_keyNext {x : Nat × Prompt} (hl : s.live) (hn : n ≤ 65535) (hp : s.found.posted? n = some (k, p))
    (hx : s.found.stepTo? n = some x) :
    ∃ l : Lib, exec (.keyNext n) s = .next { s with lib := l.send (.reply n .next .taken) }
      ∧ l.prompts.presented = some x.2.posting ∧ l.prompts.stepped = some n
      ∧ l = { s.found with prompts := l.prompts, out := l.out }
      ∧ (s.found.prompts.presented = some x.2.posting →
        l = { s.found with prompts := { s.found.prompts with stepped := some n } }) := by
  have honly := Lib.stepPast_only n s.found
  have hact : s.found.keyAct .next s.set (k, p) = s.found.stepPast n :=
    congrArg s.found.stepPast (Lib.postedAt_of_posted? hp).posting
  obtain ⟨hpresented, hstepped⟩ := Lib.stepPast_prompts hx
  exact ⟨_, exec_key_quiet hl hn rfl hp rfl hact honly.notes, hpresented, hstepped, honly,
    fun hshown => Lib.stepPast_of_shown hx hshown⟩

/-- DONE of the DRIVE-ATTENTION that a request of an account waits on (R58, R137). -/
theorem exec_keyDone {d tag account : Nat} {serial : Serial} {c : Code} {r : Request} {v : Volume} (hl : s.live)
    (hn : n ≤ 65535) (hp : s.found.posted? n = some (k, p)) (hkind : p.kind = .driveAttention)
    (hrequest : p.isRequest = true) (hdrive : p.subject.drive = some d) (htag : p.subject.tag = some tag)
    (haccount : r.account = some account) (h : s.found.WaitsOn d tag serial c r v) :
    exec (.keyDone n) s = .next { s with
      lib := (((s.found.accrue (some account) Account.addManual).attended s.set serial d tag).settle s.set).send
        (.reply n .done .taken) } := by
  rw [exec_key_taken hl hn rfl hp ((keyValid_done_iff p).2 ⟨hrequest, hkind⟩),
    ← (h.accrue (some account) Account.addManual).attentionDone_eq s.set]
  simp [Lib.keyAct, Lib.donePrompt, hdrive, htag, h.req, haccount]

theorem exec_hello (hl : s.live) : exec .hello s = .next { s with lib := s.found.sendAgain } := by
  refine exec_event_quiet _ _ s hl rfl _ rfl ?_
  unfold Lib.sendAgain
  split <;> exact found_notes s

end

/-- Settles O50: each key and timer by its own step. -/
theorem panelAnswers : Obligations.PanelAnswers := by
  unfold Obligations.PanelAnswers
  constructor
  · intro n k p s hl hshape hn hp follower presents
    refine ⟨fun x hx hnamed => ?_, fun m x hstepped hpresented hx => ?_, ?_⟩
    · refine exec_keyNext hl hn hp ?_
      rw [Lib.stepTo?, Lib.stepFrom_of_named hnamed]
      exact hx
    · refine exec_keyNext hl hn hp ?_
      rw [Lib.stepTo?, Lib.stepFrom_of_presented hstepped hpresented]
      exact hx
    · intro d tag r serial v c a account hkind hrequest hdrive hd htag hr horigin hdone hcode hunrefused haccount ha _
        hserving hreel hv hplace halone
      have hwaits : s.found.WaitsOn d tag serial c r v :=
        ⟨by rw [drives_length_of_shape (found_shape hshape)]; exact hd, hr, hdone, horigin, hcode, hunrefused,
          hserving, halone, hreel, hv, hplace⟩
      have haccrued := hwaits.accrue (some account) Account.addManual
      obtain ⟨q, hq, hstate, hcodeDone⟩ := haccrued.attended_req? s.set
      have hdrives := haccrued.attended_drives s.set
      rw [Lib.accrue_drives] at hdrives
      obtain ⟨hself, hothers⟩ := Lib.drive_of_modify hdrives hwaits.lt
      refine ⟨_, q, exec_keyDone hl hn hp hkind hrequest hdrive htag haccount hwaits, hq, hstate, hcodeDone,
        haccrued.attended_vol? s.set, haccrued.attended_raises s.set, congrArg Drive.state hself,
        congrArg Drive.reel hself, congrArg Drive.serving hself, congrArg Drive.offPending hself, hothers,
        fun hmax => ?_⟩
      rw [← Lib.account?_accrue_addManual ha hmax]
      unfold Lib.account?
      rw [haccrued.attended_acct s.set]
  · intro s hl _
    refine ⟨fun n k p hp hdue hpresented => ?_, fun hnone => ?_, fun x hx => ?_⟩
    · exact exec_event_quiet _ _ s hl rfl _ (Lib.reAnnounced_of_presented s.set hp hdue hpresented rfl) (found_notes s)
    · rw [exec_hello hl, Lib.sendAgain, hnone]
      rfl
    · rw [exec_hello hl, Lib.sendAgain, hx]
      rfl

end Sys2Proof.Machine
end

section
/-! The account commands (chapter 07): Open, Update, Suspend, Resume and Close Account (R147 to R151), Read Account and
Close Period (R158, R159). -/

namespace Sys2Proof.Machine

/-! ## The checks of an account command -/

theorem accountOk_iff {n : Nat} : accountOk n = true ↔ 1 ≤ n ∧ n ≤ 9999 := by simp [accountOk]

theorem accountFieldsOk_iff {n limit quota : Nat} :
    accountFieldsOk n limit quota = true ↔ (1 ≤ n ∧ n ≤ 9999) ∧ limit ≤ 16 ∧ quota ≤ 65535 := by
  unfold accountFieldsOk max16
  simp [accountOk_iff, and_assoc]

section
variable {s : State} {n : Nat} {a : Account}

/-- An account command whose checks all hold does its work where the library serves. -/
theorem accountCommand_of_forall (hs : s.serving) (g : Settings) {cs : List (Bool × Sense)} (k : Applied)
    (h : ∀ c ∈ cs, c.1 = true) : accountCommand n cs g s.lib.begin k = k :=
  gated_checks_of_forall hs _ _ _ _ (by simpa using h)

/-- A command on an account that exists is given its record (R147). -/
theorem onAccount_of_found (hs : s.serving) (hok : accountOk n = true) (ha : s.lib.account? n = some a) (g : Settings)
    (k : Account → Applied) : onAccount n g s.lib.begin k = k a := by
  unfold onAccount
  rw [accountCommand_of_forall hs g _ (by simpa using hok), begin_account?, ha]

end

/-! ## The records -/

namespace Lib

section
variable {l m : Lib} {n : Nat} {a b : Account}

theorem account?_addAccount_self (h : l.account? a.number = none) : (l.addAccount a).account? a.number = some a :=
  find?_insertBy_self _ _ _ _ (by simp) h

theorem account?_addAccount_other {k : Nat} (hk : k ≠ a.number) : (l.addAccount a).account? k = l.account? k :=
  find?_insertBy_other _ _ _ _ (by simpa using hk.symm)

theorem account?_dropAccount_self : (l.dropAccount n).account? n = none := by simp [account?, dropAccount]

theorem account?_dropAccount_other {k : Nat} (hk : k ≠ n) : (l.dropAccount n).account? k = l.account? k := by
  unfold account? dropAccount
  rw [List.find?_filter]
  congr 1
  funext b
  by_cases hb : b.number = k <;> simp [hb, hk]

theorem account?_updAcct_of_found (f : Account → Account) (ha : l.account? n = some a)
    (hf : ∀ a, (f a).number = a.number) : (l.updAcct n f).account? n = some (f a) := by
  rw [account?_updAcct_self n f l hf, ha]; rfl

theorem accountInUse_iff :
    l.accountInUse n = true ↔ (∃ r ∈ l.reqs.live, r.account = some n) ∨ 0 < l.ownedCount n := by
  simp [accountInUse]

/-- `m` is `l` with the one record of account `n` made `b`, and a run of the dispatcher left to do exactly where
`frees` holds (R95). -/
structure ChangesAccount (l m : Lib) (n : Nat) (b : Account) (frees : Prop) : Prop where
  only : m = { l with acct := { l.acct with accounts := m.acct.accounts }, notes := m.notes }
  self : m.account? n = some b
  others : ∀ k, k ≠ n → m.account? k = l.account? k
  wake : m.notes.wake = true ↔ frees
  raised : m.notes.raised = []

/-- Where nothing is noted, a record left as it is frees nothing. -/
theorem ChangesAccount.refl (ha : l.account? n = some a) (hnotes : l.notes = .none) : l.ChangesAccount l n a False :=
  ⟨rfl, ha, fun _ _ => rfl, by simp [hnotes, Notes.none], by rw [hnotes]; rfl⟩

theorem ChangesAccount.updAcct (f : Account → Account) (ha : l.account? n = some a) (hnotes : l.notes = .none)
    (hf : ∀ a, (f a).number = a.number) : l.ChangesAccount (l.updAcct n f) n (f a) False :=
  ⟨rfl, account?_updAcct_of_found f ha hf, fun k hk => account?_updAcct_other n k f l hk hf,
    by simp [hnotes, Notes.none], by rw [updAcct_notes, hnotes]; rfl⟩

theorem ChangesAccount.woken {frees : Prop} (h : l.ChangesAccount m n b frees) : l.ChangesAccount m.wake n b True := by
  obtain ⟨honly, hself, hothers, -, hraised⟩ := h
  refine ⟨?_, hself, hothers, by simp [Lib.wake], hraised⟩
  exact congrArg (fun m : Lib => m.wake) honly

end

end Lib

/-! ## Open and Close Account -/

section
variable {s : State} {n : Nat} {a : Account}

theorem exec_openAccount {limit quota : Nat} (hl : s.live) (hs : s.serving)
    (hok : accountFieldsOk n limit quota = true) (hnew : s.lib.account? n = none)
    (hroom : s.lib.acct.accounts.length < 128) :
    exec (.openAccount n limit quota) s
      = .next (s.after s.set (s.lib.begin.addAccount (openedAccount s.set n limit quota)) (.good [])) := by
  refine exec_good_quiet _ _ s hl rfl _ _ _ ?_ rfl
  exact accountCommand_of_forall hs _ _ (by simp [hok, hnew, Config.accountRecords, hroom])

theorem exec_closeAccount (hl : s.live) (hs : s.serving) (hok : accountOk n = true)
    (ha : s.lib.account? n = some a) (hidle : s.lib.accountInUse n = false) :
    exec (.closeAccount n) s = .next (s.after s.set (s.lib.begin.dropAccount n) (.good [])) := by
  refine exec_good_quiet _ _ s hl rfl _ _ _ ?_ rfl
  have hidle' : s.lib.begin.accountInUse n = false := hidle
  exact (onAccount_of_found hs hok ha _ _).trans (by rw [hidle']; rfl)

theorem exec_closeAccount_inUse (hl : s.live) (hs : s.serving) (hok : accountOk n = true)
    (ha : s.lib.account? n = some a) (hused : s.lib.accountInUse n = true) :
    exec (.closeAccount n) s = .next (s.after s.set s.lib.begin (.check .accountBusy (.account n))) := by
  refine exec_refuse _ _ s hl rfl _ _ ?_
  have hused' : s.lib.begin.accountInUse n = true := hused
  exact (onAccount_of_found hs hok ha _ _).trans (by rw [hused']; rfl)

end

/-- Settles O40: the record is put in its place among the accounts, or taken out of them. -/
theorem openAndCloseAccount : Obligations.OpenAndCloseAccount := by
  unfold Obligations.OpenAndCloseAccount
  constructor
  · intro n limit quota s hl hs hlo hhi hlimit hquota hnew hroom
    exact ⟨_, exec_openAccount hl hs (accountFieldsOk_iff.2 ⟨⟨hlo, hhi⟩, hlimit, hquota⟩) hnew hroom, rfl,
      Lib.account?_addAccount_self (l := s.lib.begin) (a := openedAccount s.set n limit quota) hnew,
      fun m hm => Lib.account?_addAccount_other hm⟩
  · intro n a s hl hs hlo hhi ha used
    have hok := accountOk_iff.2 ⟨hlo, hhi⟩
    have hinUse : s.lib.accountInUse n = true ↔ used := Lib.accountInUse_iff
    refine ⟨fun hidle => ?_, fun hused => exec_closeAccount_inUse hl hs hok ha (hinUse.2 hused)⟩
    have hfree : s.lib.accountInUse n = false := Bool.eq_false_iff.2 fun h => hidle (hinUse.1 h)
    exact ⟨_, exec_closeAccount hl hs hok ha hfree, rfl, Lib.account?_dropAccount_self,
      fun m hm => Lib.account?_dropAccount_other hm⟩

/-! ## Update, Suspend and Resume Account -/

section
variable {s : State} {n : Nat} {a : Account}

theorem exec_updateAccount {limit quota : Nat} (hl : s.live) (hs : s.serving)
    (hok : accountFieldsOk n limit quota = true) (ha : s.lib.account? n = some a) :
    let m := s.lib.begin.updAcct n fun a => { a with limit := limit, quota := quotaOf quota }
    exec (.updateAccount n limit quota) s
      = .next (s.after s.set ((if a.limit < limit then m.wake else m).settle s.set) (.good [])) := by
  refine exec_good _ _ s hl rfl _ _ _ ?_
  have hnumber := accountOk_iff.2 (accountFieldsOk_iff.1 hok).1
  exact (accountCommand_of_forall hs _ _ (by simpa using hok)).trans (onAccount_of_found hs hnumber ha _ _)

theorem exec_suspendAccount (hl : s.live) (hs : s.serving) (hok : accountOk n = true)
    (ha : s.lib.account? n = some a) :
    exec (.suspendAccount n) s = .next (s.after s.set
      ((s.lib.begin.updAcct n fun a => { a with suspended := true }).settle s.set) (.good [])) :=
  exec_good _ _ s hl rfl _ _ _ (onAccount_of_found hs hok ha _ _)

theorem exec_resumeAccount (hl : s.live) (hs : s.serving) (hok : accountOk n = true)
    (ha : s.lib.account? n = some a) :
    let m := s.lib.begin.updAcct n fun a => { a with suspended := false }
    exec (.resumeAccount n) s
      = .next (s.after s.set ((if a.suspended then m.wake else s.lib.begin).settle s.set) (.good [])) :=
  exec_good _ _ s hl rfl _ _ _ (onAccount_of_found hs hok ha _ _)

end

/-- Settles O41: each command changes the one record, and the dispatcher is woken in the case that frees a resource. -/
theorem accountChangesOneRecord : Obligations.AccountChangesOneRecord := by
  unfold Obligations.AccountChangesOneRecord
  intro n a s hl hs hlo hhi ha changes
  have hok := accountOk_iff.2 ⟨hlo, hhi⟩
  have hchanges : ∀ {c : Instr} {m : Lib} {b : Account} {frees : Prop},
      exec c s = .next (s.after s.set (m.settle s.set) (.good [])) → s.lib.begin.ChangesAccount m n b frees →
      changes c b frees :=
    fun hexec h => ⟨_, hexec, h.only, h.self, h.others, h.wake, h.raised⟩
  have hupd : ∀ f : Account → Account, (∀ a, (f a).number = a.number) →
      s.lib.begin.ChangesAccount (s.lib.begin.updAcct n f) n (f a) False :=
    fun f hf => .updAcct f ha rfl hf
  refine ⟨fun limit quota hlimit hquota => ?_, ?_, ?_⟩
  · have hfields := accountFieldsOk_iff.2 ⟨⟨hlo, hhi⟩, hlimit, hquota⟩
    refine hchanges (exec_updateAccount hl hs hfields ha) ?_
    have hupdated := hupd (fun a => { a with limit := limit, quota := quotaOf quota }) fun _ => rfl
    by_cases hraised : a.limit < limit
    · rw [if_pos hraised, eq_true hraised]
      exact hupdated.woken
    · rw [if_neg hraised, eq_false hraised]
      exact hupdated
  · exact hchanges (exec_suspendAccount hl hs hok ha) (hupd (fun a => { a with suspended := true }) fun _ => rfl)
  · refine hchanges (exec_resumeAccount hl hs hok ha) ?_
    by_cases hsuspended : a.suspended = true
    · rw [if_pos hsuspended, eq_true hsuspended]
      exact (hupd (fun a => { a with suspended := false }) fun _ => rfl).woken
    · have hopen : ({ a with suspended := false } : Account) = a := by
        rw [← Bool.eq_false_iff.2 hsuspended]
      rw [if_neg hsuspended, eq_false hsuspended, hopen]
      exact .refl ha rfl

/-! ## Read Account -/

theorem Lib.mountedOf_eq (l : Lib) (n : Nat) :
    l.mountedOf n = l.reqs.live.filter fun r => decide (r.account = some n ∧ r.state = .mounted) := by
  simp [Lib.mountedOf, Bool.decide_and]

/-- The record of Read Account has 40 bytes (R204). -/
theorem accountFields_length (l : Lib) (t : Clock) (a : Account) :
    (dataBytes (accountFields l t a)).length = 40 := by
  simp [dataBytes_length, accountFields]

section
variable {s : State} {n : Nat} {a : Account}

theorem exec_readAccount (hl : s.live) (hs : s.serving) (hok : accountOk n = true)
    (ha : s.lib.account? n = some a) :
    exec (.readAccount n) s = .next (s.after s.set
      (s.lib.begin.updAcct n fun a => { a with lastRead := some s.set.clock })
      (.good (accountFields s.lib s.set.clock a))) :=
  exec_good_quiet _ _ s hl rfl _ _ _ (onAccount_of_found hs hok ha _ _) rfl

end

/-! ## Close Period -/

section
variable {s : State} {n : Nat} {a : Account}

/-- Close Period of an account that has not been read since its period began (R159). -/
theorem cmdClosePeriod_of_unread {stamp : Nat} (hs : s.serving) (hok : accountOk n = true) (hstamp : stamp ≤ 65535)
    (ha : s.lib.account? n = some a) (hread : a.lastRead = none) :
    cmdClosePeriod n stamp s.set s.lib.begin = .refuse s.set s.lib.begin .sequence (.account n) := by
  unfold cmdClosePeriod
  rw [accountCommand_of_forall hs _ _ (by simp [hok, max16, hstamp]), onAccount_of_found hs hok ha, hread]

/-- Close Period of an account that has been read at `t`: its stamp decides (R159). -/
theorem cmdClosePeriod_of_read {stamp : Nat} {t : Clock} (hs : s.serving) (hok : accountOk n = true)
    (hstamp : stamp ≤ 65535) (ha : s.lib.account? n = some a) (hread : a.lastRead = some t) :
    cmdClosePeriod n stamp s.set s.lib.begin
      = checks [(decide (stamp = a.stamp), .stalePeriod, .account n)] s.set s.lib.begin
          (.good s.set ((s.lib.begin.updAcct n (closedAccount t)).accrueFrom n t) []) := by
  unfold cmdClosePeriod
  rw [accountCommand_of_forall hs _ _ (by simp [hok, max16, hstamp]), onAccount_of_found hs hok ha, hread]

theorem exec_closePeriod {t : Clock} (hl : s.live) (hs : s.serving) (hok : accountOk n = true)
    (ha : s.lib.account? n = some a) (hread : a.lastRead = some t) (hstamp : a.stamp ≤ 65535) :
    exec (.closePeriod n a.stamp) s = .next (s.after s.set
      ((s.lib.begin.updAcct n (closedAccount t)).accrueFrom n t) (.good [])) := by
  refine exec_good_quiet _ _ s hl rfl _ _ _ ?_ rfl
  rw [cmdClosePeriod_of_read hs hok hstamp ha hread, decide_eq_true rfl, checks_pass, checks_nil]

theorem exec_closePeriod_unread {stamp : Nat} (hl : s.live) (hs : s.serving) (hok : accountOk n = true)
    (ha : s.lib.account? n = some a) (hread : a.lastRead = none) (hstamp : stamp ≤ 65535) :
    exec (.closePeriod n stamp) s = .next (s.after s.set s.lib.begin (.check .sequence (.account n))) :=
  exec_refuse _ _ s hl rfl _ _ (cmdClosePeriod_of_unread hs hok hstamp ha hread)

theorem exec_closePeriod_stale {stamp : Nat} {t : Clock} (hl : s.live) (hs : s.serving) (hok : accountOk n = true)
    (ha : s.lib.account? n = some a) (hread : a.lastRead = some t) (hstamp : stamp ≤ 65535) (hstale : stamp ≠ a.stamp) :
    exec (.closePeriod n stamp) s = .next (s.after s.set s.lib.begin (.check .stalePeriod (.account n))) := by
  refine exec_refuse _ _ s hl rfl _ _ ?_
  rw [cmdClosePeriod_of_read hs hok hstamp ha hread, decide_eq_false hstale, checks_fail]

end

/-- Settles O42: the record is read out as it stands, and the checks of the period decide what its closing does. -/
theorem readAndClosePeriod : Obligations.ReadAndClosePeriod := by
  unfold Obligations.ReadAndClosePeriod
  intro n a s hl hs hlo hhi ha clock mounted data
  have hok := accountOk_iff.2 ⟨hlo, hhi⟩
  have hself : ∀ f : Account → Account, (∀ a, (f a).number = a.number) →
      (s.lib.begin.updAcct n f).account? n = some (f a) := fun f hf => Lib.account?_updAcct_of_found f ha hf
  have hothers : ∀ f : Account → Account, (∀ a, (f a).number = a.number) → ∀ m, m ≠ n →
      (s.lib.begin.updAcct n f).account? m = s.lib.account? m :=
    fun f hf m hm => Lib.account?_updAcct_other n m f s.lib.begin hm hf
  have hdata : data = accountFields s.lib s.set.clock a := by
    simp only [data, mounted, accountFields, Lib.mountedOf_eq]
    rfl
  refine ⟨?_, fun t hread hstamp => ?_, fun stamp hstamp hread => exec_closePeriod_unread hl hs hok ha hread hstamp,
    fun stamp t hstamp hread hstale => exec_closePeriod_stale hl hs hok ha hread hstamp hstale⟩
  · rw [hdata]
    exact ⟨_, exec_readAccount hl hs hok ha, accountFields_length _ _ _, rfl, hself _ fun _ => rfl,
      hothers _ fun _ => rfl⟩
  · refine ⟨_, exec_closePeriod hl hs hok ha hread hstamp, rfl, hself (closedAccount t) fun _ => rfl,
      hothers (closedAccount t) fun _ => rfl, ?_⟩
    simp [Lib.accrueFrom]

end Sys2Proof.Machine
end

section
/-! The library clock's second (00_scope), and the period timer with the actions its source is linked to (R161, R167,
R170). -/

namespace Sys2Proof.Machine

/-! ## The clock's second -/

theorem Clock.tick_of_lt {c : Clock} (h : c.second < 86399) : c.tick = { c with second := c.second + 1 } := if_pos h

theorem Clock.tick_of_last {c : Clock} (h : c.second = 86399) : c.tick = ⟨(c.day + 1) % 65536, 0⟩ :=
  if_neg (by omega)

theorem exec_clockSecond {s : State} (hl : s.live) :
    exec .clockSecond s = .next { s with
      set := { s.set with clock := s.set.clock.tick }
      port := { s.port with stall := countDown s.port.stall }
      lib := s.lib.begin.tick } := by
  have hwarned : ¬ s.set.warned = true := Bool.eq_false_iff.1 hl
  exact congrArg Host.Outcome.next (if_neg hwarned)

/-! ## The period timer -/

namespace Lib

/-- PERIOD-TIMER raised; the source has no subject (R163). -/
def periodRaising : Raising := { source := .periodTimer, drive := none, columns := none, tag := none }

/-- The period timer begun again with its length (R161). -/
def periodBegun (g : Settings) (l : Lib) : Lib := { l with acct := { l.acct with periodLeft := g.timers.period } }

theorem periodExpired_of_due (g : Settings) {l : Lib} (h : l.acct.periodLeft = 0) :
    l.periodExpired g = (l.periodBegun g).raise periodRaising := if_pos h

theorem periodExpired_of_running (g : Settings) {l : Lib} (h : l.acct.periodLeft ≠ 0) : l.periodExpired g = l :=
  if_neg h

/-! ## The actions of its link -/

section
variable {g : Settings} {l : Lib}

theorem linkOf_period (g : Settings) : linkOf g periodRaising.source = entryOf g.links 11 := rfl

theorem act_period_none (hlink : entryOf g.links 11 = .none) : l.act g periodRaising = l := by
  simp [act, linkOf_period, hlink]

theorem act_period_raiseAttention (hlink : entryOf g.links 11 = .raiseAttention) : l.act g periodRaising
    = { l with att := { causes := l.att.causes ||| 0x10, linked := l.att.linked ||| 0x400 } } := by
  unfold act
  rw [linkOf_period, hlink]
  rfl

theorem act_period_postNotice (hlink : entryOf g.links 11 = .postNotice) :
    l.act g periodRaising = l.postNotice g .periodDue .nothing 0 := by
  unfold act
  rw [linkOf_period, hlink]
  rfl

/-- SCAN-STATION is skipped outside READY or with the door OPEN (R167). -/
theorem act_period_scanSkipped (hlink : entryOf g.links 11 = .scanStation)
    (h : l.start.state ≠ .ready ∨ l.place.doorOpen = true) : l.act g periodRaising = l := by
  unfold act
  rcases h with h | h <;> simp [linkOf_period, hlink, h]

/-- A notice whose kind stands in no slot is posted in the lowest FREE one (R126, R128). -/
theorem postNotice_of_free {kind : PromptKind} {k : Nat} (x : PromptSubject) (n : Nat)
    (hnew : ∀ j p, l.prompts.slots.getD j none = some p → p.kind ≠ kind) (hfree : l.freePromptSlot = some k) :
    l.postNotice g kind x n = l.postAt g k (noticeDraft kind x n) := by
  have hnone : ∀ y ∈ l.numbered, y.2.kind ≠ kind := fun y hy => hnew y.1 y.2 (mem_numbered.1 hy).2
  have hunmatched : ¬ (l.numbered.any fun y =>
      y.2.isPosted && y.2.kind = kind && kind.sameSubject y.2.subject x) = true := by
    intro h
    obtain ⟨y, hy, hmatch⟩ := List.any_eq_true.1 h
    obtain ⟨⟨-, hkind⟩, -⟩ : (y.2.isPosted = true ∧ y.2.kind = kind) ∧ kind.sameSubject y.2.subject x = true := by
      simpa using hmatch
    exact hnone y hy hkind
  unfold postNotice
  rw [if_neg hunmatched, hfree]

end

end Lib

section
variable {s : State}

theorem exec_periodTimerExpiry_due (hl : s.live) (hdue : s.found.acct.periodLeft = 0) :
    exec .periodTimerExpiry s = .next (s.settled ((s.found.periodBegun s.set).raise Lib.periodRaising)) :=
  exec_event _ (fun g l => l.periodExpired g) s hl rfl _ (Lib.periodExpired_of_due s.set hdue)

theorem exec_periodTimerExpiry_running (hl : s.live) (hrunning : s.found.acct.periodLeft ≠ 0) :
    exec .periodTimerExpiry s = .next { s with lib := s.found } :=
  exec_event_quiet _ (fun g l => l.periodExpired g) s hl rfl _ (Lib.periodExpired_of_running s.set hrunning)
    (found_notes s)

/-- The expiry with an action that leaves nothing to do: the step ends with what the action leaves. -/
theorem exec_periodTimerExpiry_acts {m : Lib} (hl : s.live) (hdue : s.found.acct.periodLeft = 0)
    (hact : (s.found.periodBegun s.set).act s.set Lib.periodRaising = m) (hquiet : m.notes = .none) :
    exec .periodTimerExpiry s = .next { s with lib := m } := by
  have hbegun : (s.found.periodBegun s.set).notes = .none := found_notes s
  have hraised : ((s.found.periodBegun s.set).raise Lib.periodRaising).notes
      = { Notes.none with raised := [Lib.periodRaising] } := by
    rw [Lib.raise_notes, hbegun]; rfl
  have hquieted : ({ (s.found.periodBegun s.set).raise Lib.periodRaising with notes := .none } : Lib)
      = s.found.periodBegun s.set := by
    rw [← hbegun]; rfl
  rw [exec_periodTimerExpiry_due hl hdue, State.settled,
    Lib.settle_raised s.set _ _ hraised m (by rw [hquieted, hact]) hquiet]

end

/-- Settles O43: the second counts every timer down, and the expiry ends with what the action of its link leaves. -/
theorem clockAndPeriodTimer : Obligations.ClockAndPeriodTimer := by
  unfold Obligations.ClockAndPeriodTimer
  constructor
  · intro s hl less
    refine ⟨s.set.clock.tick, ?_, Clock.tick_of_lt, Clock.tick_of_last⟩
    rw [exec_clockSecond hl]
    rfl
  · intro s hl begun entry
    have hbegun : begun.notes = .none := found_notes s
    refine ⟨fun hdue => ⟨exec_periodTimerExpiry_due hl hdue, fun hlink => ?_, fun hlink => ?_,
      fun k hlink hshape hfree hnew => ?_, fun hlink hskip => ?_⟩, exec_periodTimerExpiry_running hl⟩
    · exact exec_periodTimerExpiry_acts hl hdue (Lib.act_period_none hlink) hbegun
    · exact exec_periodTimerExpiry_acts hl hdue (Lib.act_period_raiseAttention hlink) hbegun
    · have honly : PromptsOnly begun (begun.postAt s.set k (Lib.noticeDraft .periodDue .nothing 0)) :=
        Lib.postAt_only ..
      have hlt : k < begun.prompts.slots.length :=
        (Lib.promptSlots_length_of_shape (found_shape hshape)).symm ▸ Lib.freePromptSlot_lt hfree
      obtain ⟨⟨shown, hslot⟩, hothers⟩ := Lib.postAt_slot s.set k (Lib.noticeDraft .periodDue .nothing 0) begun hlt
      have hact := (Lib.act_period_postNotice hlink).trans
        (Lib.postNotice_of_free (g := s.set) (l := begun) .nothing 0 hnew hfree)
      exact ⟨_, _, exec_periodTimerExpiry_acts hl hdue hact (honly.notes.trans hbegun), honly, hslot, rfl, rfl, rfl,
        rfl, hothers⟩
    · exact exec_periodTimerExpiry_acts hl hdue (Lib.act_period_scanSkipped hlink hskip) hbegun

end Sys2Proof.Machine
end

section
/-! The link table (R164 to R166): what Set Link leaves in each entry, when an exclusive action is held by another
source, and the row of Set Link. -/

namespace Sys2Proof.Machine

/-! ## The entries -/

theorem entryOf_set {links : List Action} (hlength : links.length = 12) {source n : Nat} (a : Action)
    (hlo : 1 ≤ source) (hhi : source ≤ 12) (hn : 1 ≤ n) :
    entryOf (links.set (source - 1) a) n = if n = source then a else entryOf links n := by
  unfold entryOf
  rw [List.getD_eq_getElem?_getD, List.getD_eq_getElem?_getD, List.getElem?_set]
  by_cases h : n = source
  · subst h
    simp [show n - 1 < links.length by omega]
  · simp [h, show source - 1 ≠ n - 1 by omega]

theorem entryOf_set_self {links : List Action} (hlength : links.length = 12) {source : Nat} (a : Action)
    (hlo : 1 ≤ source) (hhi : source ≤ 12) : entryOf (links.set (source - 1) a) source = a := by
  rw [entryOf_set hlength a hlo hhi hlo, if_pos rfl]

theorem entryOf_set_other {links : List Action} (hlength : links.length = 12) {source n : Nat} (a : Action)
    (hlo : 1 ≤ source) (hhi : source ≤ 12) (hn : 1 ≤ n) (hne : n ≠ source) :
    entryOf (links.set (source - 1) a) n = entryOf links n := by
  rw [entryOf_set hlength a hlo hhi hn, if_neg hne]

/-! ## The holder of an exclusive action -/

/-- The search runs over the sources 1 to 12 in ascending order. -/
theorem linkHolder?_eq_find? (links : List Action) (source : Nat) {a : Action} (ha : a.exclusive = true) :
    linkHolder? links source a
      = (List.range' 1 12).find? fun n => n ≠ source && entryOf links n = a := by
  unfold linkHolder?
  rw [if_pos ha]
  rfl

/-- No other entry holds the action. -/
theorem linkHolder?_eq_none_iff (links : List Action) (source : Nat) (a : Action) :
    linkHolder? links source a = none
      ↔ ∀ n, 1 ≤ n → n ≤ 12 → n ≠ source → a.exclusive = true → entryOf links n ≠ a := by
  by_cases ha : a.exclusive = true
  · rw [linkHolder?_eq_find? links source ha, List.find?_range'_eq_none]
    simp only [ha, Bool.not_eq_eq_eq_not, Bool.not_true, Bool.and_eq_false_imp, decide_eq_true_eq,
      decide_eq_false_iff_not, forall_const]
    exact ⟨fun h n hlo hhi => h n hlo (by omega), fun h n hlo hlt => h n hlo (by omega)⟩
  · simp [linkHolder?, ha]

/-- The lowest other entry that holds an exclusive action. -/
theorem linkHolder?_eq_some {links : List Action} {source n : Nat} {a : Action} (ha : a.exclusive = true)
    (hlo : 1 ≤ n) (hhi : n ≤ 12) (hne : n ≠ source) (hn : entryOf links n = a)
    (hfirst : ∀ m, 1 ≤ m → m < n → m ≠ source → entryOf links m ≠ a) :
    linkHolder? links source a = some n := by
  rw [linkHolder?_eq_find? links source ha, List.find?_range'_eq_some]
  refine ⟨by simp [hne, hn], by simp; omega, fun m hm hlt => ?_⟩
  by_cases hms : m = source
  · simp [hms]
  · simp [hfirst m hm hlt hms]

/-! ## Set Link and Read Links -/

theorem Action.ofCode?_of_gt {n : Nat} (h : 5 < n) : Action.ofCode? n = .none :=
  List.getElem?_eq_none h

/-- Check 1 of R166: the action that the two fields name, or none. -/
theorem cmdSetLink_badField {source action : Nat} {s : State} (hs : s.serving)
    (hbad : source < 1 ∨ 12 < source ∨ 5 < action) :
    cmdSetLink source action s.set s.lib.begin = .refuse s.set s.lib.begin .invalidField .none := by
  unfold cmdSetLink
  rw [gated_serving _ _ _ s.lib.begin _ hs]
  rcases hbad with h | h | h
  · rw [if_neg (by simp; omega)]
  · rw [if_neg (by simp; omega)]
  · rw [Action.ofCode?_of_gt h, ite_self]

section
variable {source action : Nat} {a : Action} {s : State} (hs : s.serving) (hlo : 1 ≤ source) (hhi : source ≤ 12)
  (ha : Action.ofCode? action = some a)
include hs hlo hhi ha

/-- Past check 1 of R166. -/
theorem cmdSetLink_fields : cmdSetLink source action s.set s.lib.begin
    = checks [(a.suits source, .linkInvalid, .source source)] s.set s.lib.begin
        ((linkHolder? s.set.links source a).elim
          (.good { s.set with links := s.set.links.set (source - 1) a } s.lib.begin
            (linkFields (s.set.links.set (source - 1) a)))
          fun n => .refuse s.set s.lib.begin .linkConflict (.source n)) := by
  unfold cmdSetLink
  rw [gated_serving _ _ _ s.lib.begin _ hs, if_pos (by simp [hlo, hhi]), ha]
  dsimp only
  cases linkHolder? s.set.links source a <;> rfl

/-- Check 2 of R166. -/
theorem cmdSetLink_unsuited (hsuits : a.suits source = false) : cmdSetLink source action s.set s.lib.begin
    = .refuse s.set s.lib.begin .linkInvalid (.source source) := by
  rw [cmdSetLink_fields hs hlo hhi ha, hsuits, checks_fail]

/-- Check 3 of R166. -/
theorem cmdSetLink_conflict {n : Nat} (hsuits : a.suits source = true)
    (hn : linkHolder? s.set.links source a = some n) : cmdSetLink source action s.set s.lib.begin
      = .refuse s.set s.lib.begin .linkConflict (.source n) := by
  rw [cmdSetLink_fields hs hlo hhi ha, hsuits, checks_pass, checks_nil, hn, Option.elim_some]

theorem cmdSetLink_sets (hsuits : a.suits source = true) (hn : linkHolder? s.set.links source a = none) :
    cmdSetLink source action s.set s.lib.begin
      = .good { s.set with links := s.set.links.set (source - 1) a } s.lib.begin
          (linkFields (s.set.links.set (source - 1) a)) := by
  rw [cmdSetLink_fields hs hlo hhi ha, hsuits, checks_pass, checks_nil, hn, Option.elim_none]

end

/-- Settles O20: the gate, then the three checks in order; a conflict names the lowest source that holds the
action. -/
theorem setLinkSetsEntry : Obligations.SetLinkSetsEntry := by
  unfold Obligations.SetLinkSetsEntry
  refine ⟨fun source action s hl => ⟨fun hstate => ⟨?_, ?_⟩, fun hstate => ⟨?_, ?_⟩, fun hs hbad => ?_,
    exec_readLinks hl⟩, fun source action a s hl hs hlo hhi ha =>
      ⟨fun hsuits hfree => ?_, fun hsuits => ?_, fun n hsuits hnlo hnhi hne hexclusive hn hfirst => ?_⟩⟩
  · exact exec_refuse _ _ s hl rfl _ _ (gated_unformatted _ _ s.lib.begin _ hstate)
  · exact exec_refuse _ _ s hl rfl _ _ (gated_unformatted _ _ s.lib.begin _ hstate)
  · exact exec_busy _ _ s hl rfl (gated_formatting _ _ _ s.lib.begin _ hstate (by decide))
  · exact exec_busy _ _ s hl rfl (gated_formatting _ _ _ s.lib.begin _ hstate (by decide))
  · exact exec_refuse _ _ s hl rfl _ _ (cmdSetLink_badField hs hbad)
  · exact exec_good_quiet _ _ s hl rfl _ _ _
      (cmdSetLink_sets hs hlo hhi ha hsuits ((linkHolder?_eq_none_iff ..).2 hfree)) rfl
  · exact exec_refuse _ _ s hl rfl _ _ (cmdSetLink_unsuited hs hlo hhi ha hsuits)
  · exact exec_refuse _ _ s hl rfl _ _
      (cmdSetLink_conflict hs hlo hhi ha hsuits (linkHolder?_eq_some hexclusive hnlo hnhi hne hn hfirst))

end Sys2Proof.Machine
end

section
/-! Attention (R171 to R173): the flags bit by bit, the attention line, Read Attention and Set Attention Mask. -/

namespace Sys2Proof.Machine

/-- A cause that is set has its flag. -/
theorem Lib.setCause_getLsbD (l : Lib) {n : Nat} (hn : n < 8) : (l.setCause n).att.causes.getLsbD n = true := by
  rw [Lib.setCause_att, BitVec.getLsbD_or, BitVec.getLsbD_ofNat, Nat.testBit_two_pow_self]
  simp [hn]

/-- A byte that is not zero has a bit that is set. -/
theorem byte_ne_zero_iff (b : Byte) : b ≠ 0 ↔ ∃ n, n < 8 ∧ b.getLsbD n = true := by
  constructor
  · intro hne
    by_contra hnone
    push Not at hnone
    exact hne (BitVec.eq_of_getLsbD_eq fun n hn => by simpa using hnone n hn)
  · rintro ⟨n, -, hbit⟩ rfl
    simp at hbit

/-- The attention line, cause by cause (R172). -/
theorem attentionLine_iff (s : State) :
    s.attentionLine = true ↔ ∃ n, n < 8 ∧ s.lib.att.causes.getLsbD n = true ∧ s.set.mask.getLsbD n = false := by
  unfold State.attentionLine
  rw [decide_eq_true_eq, byte_ne_zero_iff]
  refine exists_congr fun n => and_congr_right fun hn => ?_
  simp [hn]

theorem attentionLine_of_no_cause {s : State} (h : s.lib.att.causes = 0) : s.attentionLine = false := by
  rw [Bool.eq_false_iff, ne_eq, attentionLine_iff]
  simp [h]

theorem exec_readAttention {s : State} (hl : s.live) (hstate : s.lib.start.state ≠ .formatting) :
    exec .readAttention s
      = .next (s.after s.set s.lib.begin.clearAttention (.good (attentionFields s.set s.lib))) :=
  exec_good_quiet _ _ s hl rfl _ _ _ (gated_unformattedToo _ _ s.lib.begin _ hstate) rfl

theorem exec_setAttentionMask {mask : Nat} {s : State} (hl : s.live) (hstate : s.lib.start.state ≠ .formatting)
    (hmask : mask < 32) :
    exec (.setAttentionMask mask) s
      = .next (s.after { s.set with mask := BitVec.ofNat 8 mask } s.lib.begin (.good [])) :=
  exec_good_quiet _ _ s hl rfl _ _ _ 
    (unformattedToo_checks_of_forall (l := s.lib.begin) hstate _ _ _ (by simp [hmask])) rfl

/-- Bits 5 to 7 of the mask field must be zero (R172). -/
theorem exec_setAttentionMask_refused {mask : Nat} {s : State} (hl : s.live)
    (hstate : s.lib.start.state ≠ .formatting) (hmask : 32 ≤ mask) :
    exec (.setAttentionMask mask) s = .next (s.after s.set s.lib.begin (.check .invalidField .none)) := by
  refine exec_refuse _ _ s hl rfl _ _ ?_
  unfold cmdSetAttentionMask
  rw [gated_unformattedToo _ _ s.lib.begin _ hstate, decide_eq_false (by omega), checks_fail]

/-- A connection that the stall limit ends outside FORMATTING leaves the records to the next step (R200). -/
theorem execAckStallExpiry_due {s : State} (hl : s.live) (hstate : s.lib.start.state ≠ .formatting)
    (hdue : s.port.stall = some 0) :
    execAckStallExpiry s = .next { s with port := s.port.ends, lib := s.lib.begin } := by
  rw [execAckStallExpiry_live s hl]
  simp [isDue, hdue, hstate]

/-- Settles O18: the record is formed from the flags as they stood; an event after it sets its flag afresh, and the end
of the connection by the stall limit touches no record. -/
theorem readAttentionReturnsAndClears : Obligations.ReadAttentionReturnsAndClears := by
  unfold Obligations.ReadAttentionReturnsAndClears
  refine fun s hl => ⟨fun hstate => ⟨_, exec_readAttention hl hstate, rfl, attentionLine_of_no_cause rfl,
    fun n hn => ⟨Lib.setCause_getLsbD _ hn, fun hunmasked => ?_⟩, fun p hdue => ?_⟩, fun hstate => ?_⟩
  · exact (attentionLine_iff _).2 ⟨n, hn, Lib.setCause_getLsbD _ hn, hunmasked⟩
  · exact ⟨_, execAckStallExpiry_due (by exact hl) (by exact hstate) hdue, rfl, rfl⟩
  · exact exec_busy _ _ s hl rfl (gated_formatting _ _ _ s.lib.begin _ hstate (by decide))

/-- Settles O19: the mask takes a field below 32, and the line goes by flags and mask alone; setting a flag does not
look at the mask. -/
theorem attentionMaskAndLine : Obligations.AttentionMaskAndLine := by
  unfold Obligations.AttentionMaskAndLine
  refine ⟨fun mask s hl => ⟨exec_setAttentionMask hl, exec_setAttentionMask_refused hl, fun hstate => ?_⟩,
    attentionLine_iff, fun n s hl hstate hn _ => ⟨Lib.setCause_getLsbD _ hn, ?_⟩⟩
  · exact exec_busy _ _ s hl rfl (gated_formatting _ _ _ s.lib.begin _ hstate (by decide))
  · exact exec_readAttention (s := { s with lib := s.lib.setCause n }) hl hstate

end Sys2Proof.Machine
end

section
/-! The invariant (Safety): the settings in their ranges, the port in a legal phase, no note left. It holds at
reset, and every command keeps it. -/

namespace Sys2Proof.Machine

/-! ## Settings in their ranges -/

theorem Clock.zero_legal : Clock.legal ⟨0, 0⟩ := ⟨by decide, by decide⟩

theorem Clock.tick_legal {c : Clock} (h : c.legal) : c.tick.legal := by
  obtain ⟨hday, -⟩ := h
  unfold Clock.tick
  split
  · next hlt => exact ⟨hday, by dsimp only; omega⟩
  · exact ⟨Nat.mod_lt _ (by decide), by dsimp only; omega⟩

/-- A suiting action that no other entry holds exclusively keeps R165. -/
theorem linksLegal_set {links : List Action} {source : Nat} {a : Action} (h : linksLegal links) (hlo : 1 ≤ source)
    (hhi : source ≤ 12) (hsuits : a.suits source = true) (hfree : linkHolder? links source a = none) :
    linksLegal (links.set (source - 1) a) := by
  obtain ⟨hlength, hsuit, hone⟩ := h
  rw [linkHolder?_eq_none_iff] at hfree
  have hself := entryOf_set_self hlength a hlo hhi
  have hother {n : Nat} (hn : 1 ≤ n) (hne : n ≠ source) := entryOf_set_other hlength a hlo hhi hn hne
  refine ⟨by rw [List.length_set, hlength], fun n hn hn' => ?_, fun m n hm hm' hn hn' hmn hexclusive => ?_⟩
  · by_cases hs : n = source
    · rw [hs, hself]
      exact hsuits
    · rw [hother hn hs]
      exact hsuit n hn hn'
  · by_cases hms : m = source <;> by_cases hns : n = source
    · rw [hms, hns]
    · rw [hms, hself] at hmn hexclusive
      exact absurd (hmn.trans (hother hn hns)).symm (hfree n hn hn' hns hexclusive)
    · rw [hns, hself] at hmn
      exact absurd ((hother hm hms).symm.trans hmn) (hfree m hm hm' hms (hmn ▸ hexclusive))
    · rw [hother hm hms, hother hn hns] at hmn
      rw [hother hm hms] at hexclusive
      exact hone m n hm hm' hn hn' hmn hexclusive

/-- A well-made change of a value in its range leaves it in its range (R189). -/
theorem setting_inRange {c : Change} {lo hi old : Nat} (hc : c.ok (inRange lo hi) = true)
    (hold : lo ≤ old ∧ old ≤ hi) : lo ≤ setting c old ∧ setting c old ≤ hi := by
  unfold setting
  split
  · next hnamed => simpa [Change.ok, hnamed, inRange] using (Bool.and_eq_true_iff.1 hc).2
  · exact hold

theorem timersAfter_legal {f : TimersBlock} {t : Timers} (hf : timersOk f = true) (h : t.legal) :
    (timersAfter f t).legal := by
  obtain ⟨hstep, hthreading, hunload, hmanual, hreannounce, hstall, hperiod, hthreshold⟩ := h
  simp only [timersOk, Bool.and_eq_true] at hf
  obtain ⟨⟨⟨⟨⟨⟨⟨⟨-, kstep⟩, kthreading⟩, kunload⟩, kmanual⟩, kreannounce⟩, kstall⟩, kperiod⟩, kthreshold⟩ := hf
  exact ⟨setting_inRange kstep hstep, setting_inRange kthreading hthreading, setting_inRange kunload hunload,
    setting_inRange kmanual hmanual, setting_inRange kreannounce hreannounce, setting_inRange kstall hstall,
    setting_inRange kperiod hperiod, (setting_inRange kthreshold ⟨Nat.zero_le _, hthreshold⟩).2⟩

theorem defaultLinks_legal : linksLegal defaultLinks := by
  have hsuits : ∀ n < 13, 1 ≤ n → (entryOf defaultLinks n).suits n = true := by decide
  have hone : ∀ m < 13, ∀ n < 13, 1 ≤ m ∧ 1 ≤ n ∧ entryOf defaultLinks m = entryOf defaultLinks n ∧
      (entryOf defaultLinks m).exclusive = true → m = n := by decide
  exact ⟨rfl, fun n hn hn' => hsuits n (by omega) hn,
    fun m n hm hm' hn hn' hmn hexclusive => hone m (by omega) n (by omega) ⟨hm, hn, hmn, hexclusive⟩⟩

theorem defaultTimers_legal : defaultTimers.legal := by
  unfold Timers.legal; decide

theorem Settings.powerOn_legal {unit : Nat} (h : unit < 8) : (Settings.powerOn unit).legal :=
  ⟨Clock.zero_legal, defaultLinks_legal, (by decide : (0 : Byte).toNat < 32), defaultTimers_legal, rfl, h⟩

/-- The attention mask takes a field below 32 (R172). -/
theorem Settings.legal_mask {g : Settings} {mask : Nat} (h : g.legal) (hmask : mask < 32) :
    { g with mask := BitVec.ofNat 8 mask }.legal := by
  obtain ⟨hclock, hlinks, -, hrest⟩ := h
  refine ⟨hclock, hlinks, ?_, hrest⟩
  rw [BitVec.toNat_ofNat]
  omega

/-! ## What the host commands leave of the settings -/

section
variable {g : Settings} {l : Lib} (hg : g.legal)
include hg

/-- A command turned away leaves the settings. -/
theorem gated_legal {who : Gate} {x : Subject} {k : Applied} (hk : k.set.legal) : (gated who x g l k).set.legal := by
  unfold gated
  split
  · split
    · exact hk
    · exact hg
  · split
    · exact hg
    · exact hk
  · exact hk

/-- A command does its work where all its checks hold, and leaves the settings where one fails. -/
theorem checks_legal {cs : List (Bool × Sense × Subject)} {k : Applied}
    (hk : (∀ c ∈ cs, c.1 = true) → k.set.legal) : (checks cs g l k).set.legal := by
  by_cases hcs : ∀ c ∈ cs, c.1 = true
  · rw [checks_eq_of_forall g l k hcs]
    exact hk hcs
  · clear hk
    induction cs with
    | nil => simp at hcs
    | cons c cs ih =>
      obtain ⟨_ | _, why, about⟩ := c
      · exact hg
      · exact ih (by simpa using hcs)

theorem gated_checks_legal {who : Gate} {x : Subject} {cs : List (Bool × Sense × Subject)} {k : Applied}
    (hk : k.set.legal) : (gated who x g l (checks cs g l k)).set.legal :=
  gated_legal hg (checks_legal hg fun _ => hk)

theorem onAccount_legal {n : Nat} {k : Account → Applied} (hk : ∀ a, (k a).set.legal) :
    (onAccount n g l k).set.legal := by
  refine gated_checks_legal hg ?_
  split
  · exact hg
  · exact hk _

theorem withTag_legal {tag : Nat} {k : Request → Applied} (hk : ∀ r, (k r).set.legal) :
    (withTag tag g l k).set.legal := by
  refine gated_checks_legal hg ?_
  split
  · exact hg
  · exact hk _

theorem admission_legal {clean : Bool} {k : Applied} (hk : k.set.legal) : (admission clean g l k).set.legal := by
  refine gated_checks_legal hg ?_
  split
  · exact hg
  · exact hk

theorem accountChecks_legal {n : Nat} {k : Applied} (hk : k.set.legal) : (accountChecks n g l k).set.legal := by
  unfold accountChecks
  split
  · exact hg
  · split
    · exact hg
    · split
      · exact hg
      · exact hk

/-! The five commands over the settings. -/

theorem cmdSetAttentionMask_legal (mask : Nat) : (cmdSetAttentionMask mask g l).set.legal :=
  gated_legal hg (checks_legal hg fun hcs => Settings.legal_mask hg (by simpa using hcs))

theorem cmdSetLink_legal (source action : Nat) : (cmdSetLink source action g l).set.legal := by
  refine gated_legal hg ?_
  split
  · exact hg
  · next a ha =>
    obtain ⟨hclock, hlinks, hrest⟩ := hg
    obtain ⟨⟨hlo, hhi⟩, -⟩ : (1 ≤ source ∧ source ≤ 12) ∧ Action.ofCode? action = some a := by simpa using ha
    refine checks_legal ⟨hclock, hlinks, hrest⟩ fun hcs => ?_
    split
    · exact ⟨hclock, hlinks, hrest⟩
    · next hfree => exact ⟨hclock, linksLegal_set hlinks hlo hhi (by simpa using hcs) hfree, hrest⟩

theorem cmdVaryPath_legal (p action : Nat) : (cmdVaryPath p action g l).set.legal := by
  obtain ⟨hclock, hlinks, hmask, htimers, hpaths, hunit⟩ := hg
  exact gated_checks_legal ⟨hclock, hlinks, hmask, htimers, hpaths, hunit⟩
    ⟨hclock, hlinks, hmask, htimers, (List.length_set ..).trans hpaths, hunit⟩

theorem cmdSetClock_legal (day second : Nat) : (cmdSetClock day second g l).set.legal := by
  refine gated_legal hg (checks_legal hg fun hcs => ?_)
  obtain ⟨hday, hsecond⟩ : day ≤ max16 ∧ second ≤ 86399 := by simpa using hcs
  exact ⟨⟨Nat.lt_succ_of_le hday, Nat.lt_succ_of_le hsecond⟩, hg.2⟩

theorem cmdSetTimers_legal (f : TimersBlock) : (cmdSetTimers f g l).set.legal := by
  refine gated_legal hg (checks_legal hg fun hcs => ?_)
  obtain ⟨hclock, hlinks, hmask, htimers, hrest⟩ := hg
  exact ⟨hclock, hlinks, hmask, timersAfter_legal (by simpa using hcs) htimers, hrest⟩

end

/-- A host command keeps the settings in their ranges; all but five leave them as they are. -/
theorem hostCommand_legal {c : Instr} {f : Settings → Lib → Applied} (hc : hostCommand c = some f) {g : Settings}
    (hg : g.legal) (l : Lib) : (f g l).set.legal := by
  cases c <;> cases hc
  case setAttentionMask => exact cmdSetAttentionMask_legal hg _
  case setLink => exact cmdSetLink_legal hg _ _
  case varyPath => exact cmdVaryPath_legal hg _ _
  case setClock => exact cmdSetClock_legal hg _ _
  case setTimers => exact cmdSetTimers_legal hg _
  case testReady => unfold cmdTestReady; split <;> exact hg
  case inquire => exact hg
  case readAttention | readLinks => exact gated_legal hg hg
  case resumeLibrary | scanStation | varyDrive | queryDrive | withdrawMessage | queryPrompt | restoreAccessor
      | queryVolume | updateVolume | retireVolume | releaseToScratch | listVolumes | listRequests | openAccount
      | setCell | defineLibrary | formatCatalogue | defineDrive => exact gated_checks_legal hg hg
  case cancel =>
    refine gated_checks_legal hg ?_
    split
    · exact hg
    · split
      · exact hg
      · split <;> exact hg
  case queryRequest | confirmDrive | postMessage =>
    refine gated_checks_legal hg ?_
    split <;> exact hg
  case releaseRequest | dismount => exact withTag_legal hg fun _ => checks_legal hg fun _ => hg
  case suspendAccount | resumeAccount | readAccount => exact onAccount_legal hg fun _ => hg
  case closeAccount => exact onAccount_legal hg fun _ => checks_legal hg fun _ => hg
  case updateAccount => exact gated_checks_legal hg (onAccount_legal hg fun _ => hg)
  case closePeriod =>
    refine gated_checks_legal hg (onAccount_legal hg fun a => ?_)
    split
    · exact hg
    · exact checks_legal hg fun _ => hg
  case enterVolume =>
    unfold cmdEnterVolume
    split <;> exact gated_checks_legal hg hg
  case audit => exact admission_legal hg (checks_legal hg fun _ => hg)
  case cleanDrive =>
    refine admission_legal hg (checks_legal hg fun _ => ?_)
    split <;> exact hg
  case eject =>
    refine admission_legal hg (checks_legal hg fun _ => ?_)
    split
    · exact hg
    · exact checks_legal hg fun _ => hg
  case mount =>
    refine admission_legal hg (checks_legal hg fun _ => accountChecks_legal hg ?_)
    split
    · exact hg
    · exact checks_legal hg fun _ => hg
  case mountScratch =>
    refine admission_legal hg (checks_legal hg fun _ => accountChecks_legal hg (checks_legal hg fun _ => ?_))
    split <;> exact hg

/-! ## The port in a legal phase -/

/-- The stall timer runs with at most ten seconds (R200): what is left of legality while a byte is handled. -/
def Port.stallBounded (p : Port) : Prop := ∀ n, p.stall = some n → n ≤ Config.ackStall

theorem Port.stallBounded_of_full {p : Port} (h : p.stall = some Config.ackStall) : p.stallBounded := by
  intro n hn
  cases h.symm.trans hn
  exact Nat.le_refl _

/-- A port in one of the five phases of a connection (R193). -/
theorem Port.legal_of_phase {p : Port} (hfree : p.conn ≠ .free) (hselecting : p.conn ≠ .selecting)
    (hstall : p.stallBounded) (hcommand : p.conn = .command → p.block.length < 16)
    (hout : p.conn = .dataOut → 0 < p.outLeft) (hin : p.conn = .dataIn → p.inData ≠ []) : p.legal :=
  ⟨fun h => absurd h (not_or.2 ⟨hfree, hselecting⟩), fun h => absurd h hfree, hstall, hcommand, hout, hin⟩

/-- A port with no connection, its lines released (R192). -/
theorem Port.legal_of_free {p : Port} (hconn : p.conn = .free) (hstall : p.stall = none)
    (hheld : p.req = false ∧ p.block = [] ∧ p.outData = [] ∧ p.outLeft = 0 ∧ p.inData = []) : p.legal :=
  ⟨fun _ => hheld, fun _ => hstall, by simp [hstall], by simp [hconn], by simp [hconn], by simp [hconn]⟩

theorem Port.powerOn_legal : Port.powerOn.legal := Port.legal_of_free rfl rfl ⟨rfl, rfl, rfl, rfl, rfl⟩

theorem Port.ends_legal (p : Port) : p.ends.legal := Port.legal_of_free rfl rfl ⟨rfl, rfl, rfl, rfl, rfl⟩

theorem Port.selected_legal (p : Port) : p.selected.legal :=
  ⟨fun _ => ⟨rfl, rfl, rfl, rfl, rfl⟩, nofun, Port.stallBounded_of_full rfl, nofun, nofun, nofun⟩

/-- The outcome of a command is no part of the phase. -/
theorem Port.ended_legal {p : Port} (h : p.legal) (r : Result) : (p.ended r).legal := by
  simpa [Port.legal] using h

theorem Port.ended_stallBounded {p : Port} (h : p.stallBounded) (r : Result) : (p.ended r).stallBounded := by
  simpa [Port.stallBounded] using h

/-- An applied command is answered in DATA-IN, with a byte to move, or in STATUS (R193). -/
theorem Port.answer_legal {p : Port} {r : Result} (hlast : p.last = some r) (hstall : p.stallBounded) :
    p.answer.legal := by
  unfold Port.answer
  rw [hlast]
  dsimp only
  split
  · exact Port.legal_of_phase nofun nofun hstall nofun nofun nofun
  · next hdata => exact Port.legal_of_phase nofun nofun hstall nofun nofun fun _ => by simpa using hdata

/-- A port that asks for a byte or offers one stays in its phase (R193). -/
theorem Port.ask_legal {p : Port} (h : p.legal) (hfree : p.conn ≠ .free) (hselecting : p.conn ≠ .selecting) :
    p.ask.legal := by
  obtain ⟨-, -, -, hcommand, hout, hin⟩ := h
  exact Port.legal_of_phase hfree hselecting (Port.stallBounded_of_full rfl) hcommand hout hin

theorem nextByte_legal {s : State} (h : s.port.legal) : (nextByte s).legal := by
  unfold nextByte
  split
  · next hask =>
    obtain ⟨⟨hconnected, hselecting⟩, -⟩ :
        (s.port.connected = true ∧ s.port.conn ≠ .selecting) ∧ s.port.req = false := by simpa using hask
    exact Port.ask_legal (p := { s.port with line := offered s }) h (by simpa [Port.connected] using hconnected)
      hselecting
  · exact h

/-- The phases toward the host follow one another (R192, R193, R197). -/
theorem Port.offeredTaken_legal {p : Port} (h : p.legal) : p.offeredTaken.legal := by
  unfold Port.offeredTaken
  split
  · dsimp only
    split
    · exact Port.legal_of_phase nofun nofun (Port.stallBounded_of_full rfl) nofun nofun nofun
    · next hrest =>
      exact Port.legal_of_phase nofun nofun (Port.stallBounded_of_full rfl) nofun nofun fun _ => by simpa using hrest
  · exact Port.legal_of_phase nofun nofun (Port.stallBounded_of_full rfl) nofun nofun nofun
  · exact p.ends_legal
  · exact h

/-- SELECT drops: the COMMAND phase begins with an empty block (R192). -/
theorem Port.selectDropped_legal {p : Port} (h : p.legal) (hconn : p.conn = .selecting) :
    { p with conn := .command }.ask.legal := by
  obtain ⟨hheld, -⟩ := h
  obtain ⟨-, hblock, -⟩ := hheld (.inr hconn)
  exact Port.legal_of_phase nofun nofun (Port.stallBounded_of_full rfl) (fun _ => by simp [hblock]) nofun nofun

/-- The clock's second takes one from the stall timer. -/
theorem Port.countDown_legal {p : Port} (h : p.legal) : { p with stall := countDown p.stall }.legal := by
  obtain ⟨hheld, hfree, hstall, hphases⟩ := h
  refine ⟨hheld, fun hconn => by simp [countDown, hfree hconn], fun n hn => ?_, hphases⟩
  obtain ⟨m, hm, rfl⟩ : ∃ m, p.stall = some m ∧ m - 1 = n := by simpa [countDown] using hn
  exact (Nat.sub_le m 1).trans (hstall m hm)

/-! ## The steps -/

/-- An event changes neither the settings nor the port, and leaves no note. -/
theorem inv_event (f : Settings → Lib → Lib) {s : State} (h : Inv s) : Inv (event f s) := by
  have ⟨hset, hport, _⟩ := h
  unfold event
  split
  · exact h
  · exact ⟨hset, hport, rfl⟩

theorem inv_quietStep {s : State} (h : Inv s) : Inv (quietStep s) := by
  have ⟨hset, hport, _⟩ := h
  unfold quietStep
  split
  · exact h
  · exact ⟨hset, hport, rfl⟩

theorem inv_keyStep (key : KeyName) (n : Nat) {s : State} (h : Inv s) : Inv (keyStep key n s) := by
  have ⟨hset, hport, _⟩ := h
  unfold keyStep
  split
  · exact h
  · exact ⟨hset, hport, rfl⟩

theorem inv_portStep {f : State → Port} {s : State} (hf : (f s).legal) (h : Inv s) : Inv (portStep f s) := by
  have ⟨hset, _, _⟩ := h
  unfold portStep
  split
  · exact h
  · exact ⟨hset, hf, rfl⟩

theorem inv_hostStep {f : Settings → Lib → Applied} (hf : ∀ g l, g.legal → (f g l).set.legal) {s : State}
    (h : Inv s) : Inv (hostStep f s) := by
  have ⟨hset, hport, _⟩ := h
  unfold hostStep
  split
  · exact h
  · exact ⟨hf _ _ hset, Port.ended_legal hport _, rfl⟩

/-! ## BYTE_HANDSHAKE -/

theorem inv_refuseByPort (r : Result) {s : State} (hset : s.set.legal) (hstall : s.port.stallBounded) :
    Inv (refuseByPort r s) :=
  ⟨hset, Port.answer_legal (Port.ended_last ..) (Port.ended_stallBounded hstall r), rfl⟩

/-- A host command applied at the end of its block. -/
theorem inv_hostStep_answer {f : Settings → Lib → Applied} (hf : ∀ g l, g.legal → (f g l).set.legal) {s : State}
    (hl : s.live) (hset : s.set.legal) (hstall : s.port.stallBounded) :
    Inv { hostStep f s with port := (hostStep f s).port.answer } := by
  rw [hostStep_live f s hl]
  exact ⟨hf _ _ hset, Port.answer_legal (Port.ended_last ..) (Port.ended_stallBounded hstall _), rfl⟩

theorem inv_applyBlock {s : State} (hl : s.live) (hset : s.set.legal) (hstall : s.port.stallBounded) :
    Inv (applyBlock s) := by
  unfold applyBlock
  dsimp only
  split
  · exact inv_refuseByPort _ hset hstall
  · split
    · exact inv_refuseByPort _ hset hstall
    · exact ⟨hset, Port.answer_legal rfl hstall, rfl⟩
    · next c hsense hspelled =>
      obtain hc | ⟨f, hf⟩ := spelled_hostCommand _ _ _ hspelled
      · exact absurd hc hsense
      · rw [hf]
        exact inv_hostStep_answer (fun g l hg => hostCommand_legal hf hg l) hl hset hstall

theorem inv_blockTaken {s : State} (hl : s.live) (hset : s.set.legal) (hstall : s.port.stallBounded) :
    Inv (blockTaken s) := by
  unfold blockTaken
  dsimp only
  split
  · exact inv_refuseByPort _ hset hstall
  · split
    · exact inv_refuseByPort _ hset hstall
    · generalize (if _ < 0x40 then 0 else _ : Nat) = n
      split
      · exact inv_refuseByPort _ hset hstall
      · split
        · exact inv_applyBlock hl hset hstall
        · next hn =>
          exact ⟨hset, Port.legal_of_phase nofun nofun hstall nofun (fun _ => Nat.pos_of_ne_zero hn) nofun, rfl⟩

theorem blockLength_le {code n : Nat} (h : blockLength code = some n) : n ≤ 16 := by
  unfold blockLength at h
  split_ifs at h <;> cases h <;> decide

theorem inv_takeBlockByte (byte : Byte) {s : State} (hl : s.live) (hset : s.set.legal)
    (hconn : s.port.conn = .command) : Inv (takeBlockByte byte s) := by
  have hstall : ({ s.port.letGo with block := s.port.block ++ [byte] } : Port).stallBounded :=
    Port.stallBounded_of_full rfl
  unfold takeBlockByte
  dsimp only
  split
  · exact inv_refuseByPort _ hset hstall
  · next n hn =>
    split
    · next hlt =>
      exact ⟨hset, Port.legal_of_phase (by simp [hconn]) (by simp [hconn]) hstall
        (fun _ => hlt.trans_le (blockLength_le hn)) (by simp [hconn]) (by simp [hconn]), rfl⟩
    · exact inv_blockTaken hl hset hstall

theorem inv_takeOutByte (byte : Byte) {s : State} (hl : s.live) (hset : s.set.legal)
    (hconn : s.port.conn = .dataOut) : Inv (takeOutByte byte s) := by
  have hstall : ({ s.port.letGo with
      outData := s.port.outData ++ [byte], outLeft := s.port.outLeft - 1 } : Port).stallBounded :=
    Port.stallBounded_of_full rfl
  unfold takeOutByte
  dsimp only
  split
  · exact inv_applyBlock hl hset hstall
  · next hleft =>
    exact ⟨hset, Port.legal_of_phase (by simp [hconn]) (by simp [hconn]) hstall (by simp [hconn])
      (fun _ => Nat.pos_of_ne_zero hleft) (by simp [hconn]), rfl⟩

theorem inv_handshake (byte : Byte) {s : State} (h : Inv s) : Inv (handshake byte s) := by
  have ⟨hset, hport, _⟩ := h
  unfold handshake
  split
  · exact h
  · next hwarned =>
    have hl : s.live := by simpa [State.live] using hwarned
    split
    · exact ⟨hset, hport, rfl⟩
    · split
      · next hconn => exact inv_takeBlockByte byte hl hset hconn
      · next hconn => exact inv_takeOutByte byte hl hset hconn
      · exact ⟨hset, Port.offeredTaken_legal hport, rfl⟩

/-! ## Every command -/

/-- The command keeps the invariant. -/
def KeepsInv (c : Instr) : Prop := ∀ s t : State, Inv s → exec c s = .next t → Inv t

/-- A command whose one next state meets the invariant where the state it finds does. -/
theorem keepsInv_of_next {c : Instr} {f : State → State} (hc : ∀ s, exec c s = .next (f s))
    (hf : ∀ s, Inv s → Inv (f s)) : KeepsInv c := by
  intro s t h ht
  rw [hc s] at ht
  cases ht
  exact hf s h

theorem keepsInv_of_event {c : Instr} {f : Settings → Lib → Lib} (hc : ∀ s, exec c s = .next (event f s)) :
    KeepsInv c := keepsInv_of_next hc fun _ => inv_event f

theorem keepsInv_of_portStep {c : Instr} {f : State → Port} (hc : ∀ s, exec c s = .next (portStep f s))
    (hf : ∀ s : State, s.port.legal → (f s).legal) : KeepsInv c :=
  keepsInv_of_next hc fun s h => by
    have ⟨_, hport, _⟩ := h
    exact inv_portStep (hf s hport) h

theorem keepsInv_of_key {c : Instr} {key : KeyName} {n : Nat} (hc : ∀ s, exec c s = keyMeaning key n s) :
    KeepsInv c :=
  keepsInv_of_next hc fun s h => by
    split
    · exact inv_keyStep key n h
    · exact inv_quietStep h

theorem keepsInv_of_hostCommand {c : Instr} {f : Settings → Lib → Applied} (hc : hostCommand c = some f) :
    KeepsInv c :=
  keepsInv_of_next (fun s => exec_hostCommand c f s hc) fun _ =>
    inv_hostStep fun _ l hg => hostCommand_legal hc hg l

theorem powerOn_keepsInv (unit : Nat) (kept doorOpen serviceOpen : Bool) (slots : List Reading) :
    KeepsInv (.powerOn unit kept doorOpen serviceOpen slots) :=
  keepsInv_of_next (fun _ => rfl) fun _ _ =>
    ⟨Settings.powerOn_legal (Nat.mod_lt _ (by decide)), Port.powerOn_legal, rfl⟩

theorem powerFailWarning_keepsInv : KeepsInv .powerFailWarning := by
  refine keepsInv_of_next (fun _ => rfl) fun s h => ?_
  have ⟨hset, _, _⟩ := h
  split
  · exact h
  · exact ⟨hset, s.port.ends_legal, rfl⟩

theorem requestSense_keepsInv : KeepsInv .requestSense := by
  refine keepsInv_of_next (fun _ => rfl) fun s h => ?_
  have ⟨hset, hport, _⟩ := h
  split
  · exact h
  · exact ⟨hset, hport, rfl⟩

theorem ackStallExpiry_keepsInv : KeepsInv .ackStallExpiry := by
  refine keepsInv_of_next (fun _ => rfl) fun s h => ?_
  have ⟨_, hport, _⟩ := h
  have hended : Inv (portStep (fun s => if isDue s.port.stall then s.port.ends else s.port) s) := by
    refine inv_portStep ?_ h
    split
    · exact s.port.ends_legal
    · exact hport
  split
  · exact inv_event _ hended
  · exact hended

theorem linkReset_keepsInv : KeepsInv .linkReset := by
  refine keepsInv_of_next (fun _ => rfl) fun s h => ?_
  have ⟨hset, _, _⟩ := h
  split
  · exact h
  · exact ⟨Settings.legal_mask (mask := 0) hset (by decide), s.port.ends_legal, rfl⟩

theorem invalidCommand_keepsInv (code : Nat) : KeepsInv (.invalidCommand code) := by
  refine keepsInv_of_next (fun _ => rfl) fun s h => ?_
  have ⟨_, hport, _⟩ := h
  split
  · exact inv_portStep hport h
  · exact inv_hostStep (fun _ _ hg => hg) h

theorem clockSecond_keepsInv : KeepsInv .clockSecond := by
  refine keepsInv_of_next (fun _ => rfl) fun s h => ?_
  have ⟨⟨hclock, hsettings⟩, hport, _⟩ := h
  split
  · exact h
  · exact ⟨⟨Clock.tick_legal hclock, hsettings⟩, Port.countDown_legal hport, rfl⟩

theorem selection_keepsInv (data : Byte) (reset : Bool) : KeepsInv (.selection data reset) := by
  refine keepsInv_of_portStep (fun _ => rfl) fun s hport => ?_
  split
  · exact s.port.selected_legal
  · exact hport

theorem selectDropped_keepsInv : KeepsInv .selectDropped := by
  refine keepsInv_of_portStep (fun _ => rfl) fun s hport => ?_
  split
  · next hconn => exact Port.selectDropped_legal hport hconn
  · exact hport

theorem endingComplete_keepsInv : KeepsInv .endingComplete := by
  refine keepsInv_of_portStep (fun _ => rfl) fun s hport => ?_
  split
  · exact s.port.ends_legal
  · exact hport

/-- Each command keeps the invariant. -/
theorem keepsInv (c : Instr) : KeepsInv c := by
  cases c
  case powerOn => exact powerOn_keepsInv _ _ _ _ _
  case powerFailWarning => exact powerFailWarning_keepsInv
  case requestSense => exact requestSense_keepsInv
  case ackStallExpiry => exact ackStallExpiry_keepsInv
  case linkReset => exact linkReset_keepsInv
  case invalidCommand => exact invalidCommand_keepsInv _
  case clockSecond => exact clockSecond_keepsInv
  case selection => exact selection_keepsInv _ _
  case selectDropped => exact selectDropped_keepsInv
  case endingComplete => exact endingComplete_keepsInv
  case ackRelease => exact keepsInv_of_portStep (fun _ => rfl) fun _ => nextByte_legal
  case byteHandshake => exact keepsInv_of_next (fun _ => rfl) fun _ => inv_handshake _
  case panelMessageDiscarded | floorMessageDiscarded => exact keepsInv_of_next (fun _ => rfl) fun _ => inv_quietStep
  case keyNext | keyAccept | keyRefuse | keyDone => exact keepsInv_of_key fun _ => rfl
  case formatClearing | auditPhase | enterReady | startLimitExpiry | reconcileQueryExpiry | threadingLimitExpiry
      | unloadLimitExpiry | stepLimitExpiry | queueStallExpiry | manualDeadlineExpiry | hostMessageDeadlineExpiry
      | reAnnounceExpiry | periodTimerExpiry | hello | picked | pickEmpty | placed | placeBlocked | cellSeen | scanDone
      | moveDone | gripper | accessorFaultReport | loadedReady | loadFailed | unloaded | unloadPressed | reelRemoved
      | cleanNeeded | driveFaultReport | online | offline | holding | doorOpened | doorClosed | slot
      | serviceDoorOpened | serviceDoorClosed =>
    exact keepsInv_of_event fun _ => rfl
  all_goals exact keepsInv_of_hostCommand rfl

/-- Settles O5: a step takes one command, and each command keeps the invariant. -/
theorem invariantKept : Obligations.InvariantKept := by
  unfold Obligations.InvariantKept
  intro s t h ht
  unfold step at ht
  split at ht
  · cases ht; exact h
  · exact keepsInv _ _ t (by exact h) ht

/-! ## Reset -/

/-- Settles O4: the settings and the port at reset are those of a power-on, and no note is left. -/
theorem invariantAtReset : Obligations.InvariantAtReset := by
  unfold Obligations.InvariantAtReset
  exact ⟨⟨Settings.powerOn_legal (by decide), Port.powerOn_legal, rfl⟩, rfl⟩

/-- Every drive of a library never formatted is at its power-on value (R63). -/
theorem reset_drive (d : Nat) : State.reset.lib.drive d = Drive.powerOn none := by
  change (List.replicate Config.drives (Drive.powerOn none)).getD d (Drive.powerOn none) = _
  rw [List.getD_eq_getElem?_getD, List.getElem?_getD_replicate_default_eq]

/-- Settles O3: each value is read off the records at reset. -/
theorem resetVolatileValues : Obligations.ResetVolatileValues := by
  unfold Obligations.ResetVolatileValues
  dsimp only
  refine ⟨rfl, rfl, rfl, rfl, rfl, rfl, rfl, rfl, rfl, rfl, rfl, rfl, rfl, fun d _ => ?_, rfl, rfl, rfl, rfl, rfl, rfl,
    rfl, rfl, rfl, rfl, rfl, rfl, rfl, rfl, rfl, rfl⟩
  rw [reset_drive]
  exact ⟨rfl, rfl⟩

end Sys2Proof.Machine
end

section
/-! What every command does: it answers a next state, after a power-fail warning none but POWER_ON acts (R176), and the
library state stands but at POWER_ON, at ENTER_READY and at Format Catalogue (R177). -/

namespace Sys2Proof.Machine

/-! ## A next state -/

/-- The meaning of every command is a next state: none ends in a fault or a refusal. -/
theorem exec_next (c : Instr) (s : State) : ∃ t, exec c s = .next t := by
  cases c <;> exact ⟨_, rfl⟩

/-- Settles O2: an empty queue idles, and every command answers a next state. -/
theorem everyStepAnswers : Obligations.EveryStepAnswers := by
  unfold Obligations.EveryStepAnswers
  intro s
  unfold step
  split
  · exact ⟨s, rfl⟩
  · exact exec_next _ _

/-! ## After a power-fail warning -/

section
variable {s : State} (h : s.set.warned = true)
include h

theorem event_warned (f : Settings → Lib → Lib) : event f s = s := if_pos h

theorem quietStep_warned : quietStep s = s := if_pos h

theorem portStep_warned (f : State → Port) : portStep f s = s := if_pos h

theorem hostStep_warned (f : Settings → Lib → Applied) : hostStep f s = s := if_pos h

theorem keyMeaning_warned (key : KeyName) (n : Nat) : keyMeaning key n s = .next s := by
  unfold keyMeaning
  split
  · exact congrArg _ (if_pos h)
  · exact congrArg _ (quietStep_warned h)

theorem execAckStallExpiry_warned : execAckStallExpiry s = .next s := by
  unfold execAckStallExpiry
  rw [portStep_warned h]
  dsimp only
  rw [event_warned h, ite_self]

theorem execInvalidCommand_warned (code : Nat) : execInvalidCommand code s = .next s := by
  unfold execInvalidCommand
  rw [portStep_warned h, hostStep_warned h, ite_self]

end

/-- After a power-fail warning no command but POWER_ON changes anything (R176). -/
theorem exec_warned {c : Instr} {s : State} (h : s.set.warned = true) (hc : ∀ u m d v r, c ≠ .powerOn u m d v r) :
    exec c s = .next s := by
  cases c
  case powerOn => exact absurd rfl (hc _ _ _ _ _)
  case powerFailWarning | requestSense | linkReset | clockSecond | byteHandshake => exact congrArg _ (if_pos h)
  case ackStallExpiry => exact execAckStallExpiry_warned h
  case invalidCommand => exact execInvalidCommand_warned h _
  case selection | selectDropped | ackRelease | endingComplete => exact congrArg _ (portStep_warned h _)
  case panelMessageDiscarded | floorMessageDiscarded => exact congrArg _ (quietStep_warned h)
  case keyNext | keyAccept | keyRefuse | keyDone => exact keyMeaning_warned h _ _
  case formatClearing | auditPhase | enterReady | startLimitExpiry | reconcileQueryExpiry | threadingLimitExpiry
      | unloadLimitExpiry | stepLimitExpiry | queueStallExpiry | manualDeadlineExpiry | hostMessageDeadlineExpiry
      | reAnnounceExpiry | periodTimerExpiry | hello | picked | pickEmpty | placed | placeBlocked | cellSeen | scanDone
      | moveDone | gripper | accessorFaultReport | loadedReady | loadFailed | unloaded | unloadPressed | reelRemoved
      | cleanNeeded | driveFaultReport | online | offline | holding | doorOpened | doorClosed | slot
      | serviceDoorOpened | serviceDoorClosed =>
    exact congrArg _ (event_warned h _)
  all_goals exact congrArg _ (hostStep_warned h _)

/-- Settles O7: after the warning every step finds it, and the warning itself ends the connection (R176, R202). -/
theorem powerFailWarningStopsAll : Obligations.PowerFailWarningStopsAll := by
  unfold Obligations.PowerFailWarningStopsAll
  refine ⟨fun c s h hc => exec_warned h hc, fun s hl => ?_⟩
  exact congrArg _ (if_neg (ne_true_of_eq_false hl))

end Sys2Proof.Machine
end

section
/-! The commands turned away by the library state (R177, R195) or by their code (R194), and Test Ready (R178). -/

namespace Sys2Proof.Machine

/-! ## BUSY in FORMATTING -/

/-- FORMATTING turns away every host command but those that R195 lets through (Request Sense, which no row of
`hostCommand` gives, is the fourth of them). -/
theorem hostCommand_busy {c : Instr} {f : Settings → Lib → Applied} (hc : hostCommand c = some f)
    (htest : c ≠ .testReady) (hinquire : c ≠ .inquire) (hresume : c ≠ .resumeLibrary) (g : Settings) {l : Lib}
    (h : l.start.state = .formatting) : f g l = .busy g l := by
  cases c <;> cases hc
  case testReady => exact absurd rfl htest
  case inquire => exact absurd rfl hinquire
  case resumeLibrary => exact absurd rfl hresume
  case enterVolume =>
    unfold cmdEnterVolume
    split <;> exact gated_formatting _ _ g l _ h nofun
  all_goals exact gated_formatting _ _ g l _ h nofun

/-! ## An unknown code -/

/-- A code outside the table of R194 has no fields: each code that has some stands in the table. -/
theorem knownCode_eq_false {code : Nat} (h : code ∉ Instr.hostCodes) : knownCode code = false := by
  unfold knownCode fieldWidths
  split
  rotate_right
  · rfl
  all_goals exact absurd (by decide) h

/-- Settles O9: the gate of each command, and the row of an unknown code. -/
theorem commandsTurnedAway : Obligations.CommandsTurnedAway := by
  unfold Obligations.CommandsTurnedAway
  refine ⟨fun c f s hl hstate hc htest hinquire hresume => ?_, fun code s hl hcode => ?_⟩
  · exact exec_busy c f s hl hc (hostCommand_busy hc htest hinquire hresume s.set hstate)
  · have hexec : exec (.invalidCommand code) s
        = .next (hostStep (fun g l => .refuse g l .invalidCommand .none) s) :=
      congrArg Host.Outcome.next (if_neg (ne_true_of_eq_false (knownCode_eq_false hcode)))
    rw [hexec, hostStep_refuse _ s hl _ _ rfl]
    rfl

/-! ## The end byte and Test Ready -/

/-- The low seven bits of the end byte are the library state's code (R177, R197). -/
theorem endByte_mod (l : Lib) : (BitVec.ofNat 8 (endByte l)).toNat % 128 = l.start.state.code := by
  have hcode : l.start.state.code < 4 := by cases l.start.state <;> decide
  rw [BitVec.toNat_ofNat]
  unfold endByte
  split <;> omega

/-- An END phase with nothing offered forms its end byte and offers it (R197). -/
theorem nextByte_ending {s : State} (hconn : s.port.conn = .ending) (hreq : s.port.req = false) :
    nextByte s = { s.port with req := true, stall := some 10, line := BitVec.ofNat 8 (endByte s.lib) } := by
  simp [nextByte, Port.connected, Port.ask, offered, hconn, hreq, Config.ackStall]

/-- Settles O16: the end byte is formed as it is offered, and Test Ready ends by the library state. -/
theorem testReadyOutcome : Obligations.TestReadyOutcome := by
  unfold Obligations.TestReadyOutcome
  refine ⟨fun s hl hconn hreq => ⟨_, ?_, endByte_mod s.lib⟩, fun s hl => ?_⟩
  · change Host.Outcome.next (portStep nextByte s) = _
    rw [portStep_live _ s hl, nextByte_ending hconn hreq]
  · cases h : s.lib.start.state
    case ready => exact exec_good_quiet _ _ s hl rfl _ _ _ (by simp [cmdTestReady, h]) rfl
    all_goals exact exec_refuse _ _ s hl rfl _ _ (by simp [cmdTestReady, h])

end Sys2Proof.Machine
end

section
/-! The library state (R177): POWER_ON, ENTER_READY and Format Catalogue alone change it. -/

namespace Sys2Proof.Machine

/-! ## What a command's checks do to the header and the library state -/

@[simp] theorem gated_base (who : Gate) (x : Subject) (g : Settings) {l : Lib} {k : Applied}
    (hk : k.lib.base = l.base) : (gated who x g l k).lib.base = l.base :=
  gated_lib (P := fun m => m.base = l.base) rfl hk

@[simp] theorem checks_base (cs : List (Bool × Sense × Subject)) (g : Settings) {l : Lib} {k : Applied}
    (hk : k.lib.base = l.base) : (checks cs g l k).lib.base = l.base :=
  checks_lib (P := fun m => m.base = l.base) rfl hk

theorem gated_checks_base {who : Gate} {x : Subject} {cs : List (Bool × Sense × Subject)} {g : Settings} {l : Lib}
    {k : Applied} (hk : k.lib.base = l.base) : (gated who x g l (checks cs g l k)).lib.base = l.base :=
  gated_base _ _ _ (checks_base _ _ hk)

theorem onAccount_base {n : Nat} {g : Settings} {l : Lib} {k : Account → Applied}
    (hk : ∀ a, (k a).lib.base = l.base) : (onAccount n g l k).lib.base = l.base := by
  refine gated_checks_base ?_
  split
  · rfl
  · exact hk _

theorem withTag_base {tag : Nat} {g : Settings} {l : Lib} {k : Request → Applied}
    (hk : ∀ r, (k r).lib.base = l.base) : (withTag tag g l k).lib.base = l.base := by
  refine gated_checks_base ?_
  split
  · rfl
  · exact hk _

theorem admission_base {clean : Bool} {g : Settings} {l : Lib} {k : Applied} (hk : k.lib.base = l.base) :
    (admission clean g l k).lib.base = l.base := by
  refine gated_checks_base ?_
  split
  · rfl
  · exact hk

theorem accountChecks_base {n : Nat} {g : Settings} {l : Lib} {k : Applied} (hk : k.lib.base = l.base) :
    (accountChecks n g l k).lib.base = l.base := by
  have hcounted (why : Sense) : (refuseCounted g l n why).lib.base = l.base := Lib.accrue_base ..
  unfold accountChecks
  split
  · rfl
  · split
    · exact hcounted _
    · split
      · exact hcounted _
      · exact hk

/-! ## The host commands -/

/-- A host command keeps the header and the library state, but for Define Library and Format Catalogue. -/
theorem hostCommand_base {c : Instr} {f : Settings → Lib → Applied} (hc : hostCommand c = some f)
    (hdefine : ∀ b, c ≠ .defineLibrary b) (hformat : c ≠ .formatCatalogue) (g : Settings) (l : Lib) :
    (f g l).lib.base = l.base := by
  cases c <;> cases hc
  case defineLibrary => exact absurd rfl (hdefine _)
  case formatCatalogue => exact absurd rfl hformat
  case testReady => unfold cmdTestReady; split <;> rfl
  case inquire => rfl
  case readAttention | readLinks => exact gated_base _ _ _ rfl
  case setAttentionMask | queryDrive | queryVolume | listVolumes | listRequests => exact gated_checks_base rfl
  case scanStation | withdrawMessage | restoreAccessor | updateVolume | retireVolume | releaseToScratch | openAccount
      | setCell | setClock | setTimers =>
    exact gated_checks_base (by simp)
  case setLink =>
    refine gated_base _ _ _ ?_
    split
    · rfl
    · refine checks_base _ _ ?_
      split <;> rfl
  case resumeLibrary =>
    refine gated_checks_base ?_
    simp; rfl
  case confirmDrive | varyDrive | queryRequest | postMessage =>
    refine gated_checks_base ?_
    split <;> simp
  case defineDrive | varyPath | queryPrompt =>
    refine gated_checks_base ?_
    simp only [Applied.good_lib]
    split <;> simp
  case cancel =>
    refine gated_checks_base ?_
    split
    · rfl
    · split
      · rfl
      · split
        · next hcancel => exact Lib.cancel_base _ _ _ _ hcancel
        · rfl
  case releaseRequest => exact withTag_base fun _ => checks_base _ _ (by simp)
  case dismount =>
    refine withTag_base fun r => checks_base _ _ ?_
    dsimp only
    split <;> simp
  case suspendAccount | readAccount => exact onAccount_base fun _ => by simp
  case closeAccount => exact onAccount_base fun _ => checks_base _ _ (by simp)
  case resumeAccount =>
    refine onAccount_base fun a => ?_
    split <;> simp
  case updateAccount =>
    refine gated_checks_base (onAccount_base fun a => ?_)
    dsimp only
    split <;> simp
  case closePeriod =>
    refine gated_checks_base (onAccount_base fun a => ?_)
    split <;> simp
  case enterVolume =>
    unfold cmdEnterVolume
    split
    · exact gated_checks_base rfl
    · exact gated_checks_base (Lib.addVol_base ..)
  case audit => exact admission_base (checks_base _ _ (by simp))
  case cleanDrive | eject =>
    refine admission_base (checks_base _ _ ?_)
    split <;> simp
  case mount =>
    refine admission_base (checks_base _ _ (accountChecks_base ?_))
    split <;> simp
  case mountScratch =>
    refine admission_base (checks_base _ _ (accountChecks_base (checks_base _ _ ?_)))
    split <;> simp

/-- A host command but Format Catalogue keeps the library state. -/
theorem hostCommand_state {c : Instr} {f : Settings → Lib → Applied} (hc : hostCommand c = some f)
    (hformat : c ≠ .formatCatalogue) (g : Settings) (l : Lib) : (f g l).lib.start.state = l.start.state := by
  by_cases hdefine : ∃ b, c = .defineLibrary b
  · obtain ⟨b, rfl⟩ := hdefine
    cases hc
    exact gated_lib (P := fun m => m.start.state = l.start.state) rfl
      (checks_lib (P := fun m => m.start.state = l.start.state) rfl rfl)
  · exact congrArg Base.state (hostCommand_base hc (not_exists.1 hdefine) hformat g l)

/-! ## The events -/

namespace Lib

@[simp] theorem settle_state (g : Settings) (l : Lib) : (l.settle g).start.state = l.start.state :=
  congrArg Base.state (settle_base g l)

/-- The clearing of a format keeps the library FORMATTING (R188). -/
theorem formatClear_state (g : Settings) (l : Lib) : (l.formatClear g).start.state = l.start.state := by
  cases h : l.store.pendingDef with
  | none => simp [formatClear, h]
  | some p =>
    have hbase : (l.formatClear g).base = (l.cleared p).base := by simp [formatClear_eq g h]
    exact congrArg Base.state hbase

theorem opened_state (g : Settings) (l : Lib) : (l.opened g).start.state = l.start.state := by
  unfold opened
  dsimp only
  split
  · exact (settle_state g _).trans (formatClear_state g l.begin)
  · rfl

end Lib

/-- The command keeps the library state. -/
def KeepsState (c : Instr) : Prop :=
  ∀ s t : State, exec c s = .next t → t.lib.start.state = s.lib.start.state

/-- A command whose one next state has the library state it finds. -/
theorem keepsState_of_next {c : Instr} {f : State → State} (hc : ∀ s, exec c s = .next (f s))
    (hf : ∀ s, (f s).lib.start.state = s.lib.start.state) : KeepsState c := by
  intro s t ht
  rw [hc s] at ht
  cases ht
  exact hf s

theorem event_state {f : Settings → Lib → Lib} (hf : ∀ g l, (f g l).start.state = l.start.state) (s : State) :
    (event f s).lib.start.state = s.lib.start.state := by
  unfold event
  split
  · rfl
  · exact (Lib.settle_state ..).trans ((hf ..).trans (Lib.opened_state ..))

theorem portStep_state (f : State → Port) (s : State) : (portStep f s).lib.start.state = s.lib.start.state := by
  unfold portStep; split <;> rfl

theorem quietStep_state (s : State) : (quietStep s).lib.start.state = s.lib.start.state := by
  unfold quietStep; split <;> rfl

theorem hostStep_state {f : Settings → Lib → Applied} (hf : ∀ g l, (f g l).lib.start.state = l.start.state)
    (s : State) : (hostStep f s).lib.start.state = s.lib.start.state := by
  unfold hostStep
  split
  · rfl
  · exact (Lib.settle_state ..).trans (hf _ s.lib.begin)

theorem keyStep_state (key : KeyName) (n : Nat) (s : State) :
    (keyStep key n s).lib.start.state = s.lib.start.state := by
  unfold keyStep
  split
  · rfl
  · exact (Lib.settle_state ..).trans
      ((congrArg Base.state (Lib.keyChange_base key s.set n _)).trans (Lib.opened_state ..))

/-- An event that changes records which the library state is none of. -/
theorem keepsState_of_event {c : Instr} {f : Settings → Lib → Lib} (hc : ∀ s, exec c s = .next (event f s))
    (hf : ∀ g l, (f g l).base = l.base) : KeepsState c :=
  keepsState_of_next hc (event_state fun g l => congrArg Base.state (hf g l))

theorem keepsState_of_portStep {c : Instr} {f : State → Port} (hc : ∀ s, exec c s = .next (portStep f s)) :
    KeepsState c := keepsState_of_next hc (portStep_state f)

theorem keepsState_of_key {c : Instr} {key : KeyName} {n : Nat} (hc : ∀ s, exec c s = keyMeaning key n s) :
    KeepsState c :=
  keepsState_of_next hc fun s => by
    split
    · exact keyStep_state key n s
    · exact quietStep_state s

/-! ## The phases of start-up, the link and the clock -/

/-- The audit phase is a phase of STARTING (R184). -/
theorem auditPhase_keepsState : KeepsState .auditPhase := by
  refine keepsState_of_next (fun _ => rfl) (event_state fun g l => ?_)
  unfold Lib.toAudits
  split
  · exact congrArg Base.state (Lib.makeRuns_base g _ _)
  · rfl

/-- The start limit expires with the library still STARTING (R186). -/
theorem startLimitExpiry_keepsState : KeepsState .startLimitExpiry := by
  refine keepsState_of_next (fun _ => rfl) (event_state fun g l => ?_)
  unfold Lib.startExpired
  split
  · refine congrArg Base.state (Eq.trans (Lib.orderJoined_base _ _) (Lib.foldl_base _ (fun m t => ?_) _ _))
    exact Lib.complete_base g t .notReady m
  · rfl

theorem powerFailWarning_keepsState : KeepsState .powerFailWarning := by
  refine keepsState_of_next (fun _ => rfl) fun s => ?_
  split <;> rfl

theorem requestSense_keepsState : KeepsState .requestSense := by
  refine keepsState_of_next (fun _ => rfl) fun s => ?_
  split <;> rfl

theorem clockSecond_keepsState : KeepsState .clockSecond := by
  refine keepsState_of_next (fun _ => rfl) fun s => ?_
  split <;> rfl

theorem ackStallExpiry_keepsState : KeepsState .ackStallExpiry := by
  refine keepsState_of_next (fun _ => rfl) fun s => ?_
  have hended := portStep_state (fun s => if isDue s.port.stall then s.port.ends else s.port) s
  split
  · exact (event_state (fun _ _ => rfl) _).trans hended
  · exact hended

/-- The library state is kept over a link reset (R201). -/
theorem linkReset_keepsState : KeepsState .linkReset := by
  refine keepsState_of_next (fun _ => rfl) fun s => ?_
  split
  · rfl
  · exact (Lib.settle_state ..).trans (congrArg Base.state (Lib.linkReset_base _ s.lib.begin))

theorem invalidCommand_keepsState (code : Nat) : KeepsState (.invalidCommand code) := by
  refine keepsState_of_next (fun _ => rfl) fun s => ?_
  split
  · exact portStep_state _ s
  · exact hostStep_state (fun _ _ => rfl) s

/-! ## Every command -/

/-- Each command but POWER_ON, ENTER_READY, Format Catalogue and the handshake that may apply it keeps the library
state. -/
theorem keepsState {c : Instr} (hpower : ∀ u m d v r, c ≠ .powerOn u m d v r) (hready : c ≠ .enterReady)
    (hformat : c ≠ .formatCatalogue) (hbyte : ∀ b, c ≠ .byteHandshake b) : KeepsState c := by
  cases hc : hostCommand c with
  | some f =>
    exact keepsState_of_next (fun s => exec_hostCommand c f s hc) (hostStep_state (hostCommand_state hc hformat))
  | none =>
    cases c
    case powerOn => exact absurd rfl (hpower _ _ _ _ _)
    case enterReady => exact absurd rfl hready
    case formatCatalogue => exact absurd rfl hformat
    case byteHandshake => exact absurd rfl (hbyte _)
    case powerFailWarning => exact powerFailWarning_keepsState
    case requestSense => exact requestSense_keepsState
    case ackStallExpiry => exact ackStallExpiry_keepsState
    case linkReset => exact linkReset_keepsState
    case invalidCommand => exact invalidCommand_keepsState _
    case clockSecond => exact clockSecond_keepsState
    case auditPhase => exact auditPhase_keepsState
    case startLimitExpiry => exact startLimitExpiry_keepsState
    case selection | selectDropped | ackRelease | endingComplete => exact keepsState_of_portStep fun _ => rfl
    case panelMessageDiscarded | floorMessageDiscarded =>
      exact keepsState_of_next (fun _ => rfl) quietStep_state
    case keyNext | keyAccept | keyRefuse | keyDone => exact keepsState_of_key fun _ => rfl
    case formatClearing | doorOpened | doorClosed | serviceDoorOpened | serviceDoorClosed | hello | stepLimitExpiry
        | queueStallExpiry | manualDeadlineExpiry | hostMessageDeadlineExpiry | reAnnounceExpiry | periodTimerExpiry
        | picked | pickEmpty | placed | placeBlocked | scanDone =>
      exact keepsState_of_event (fun _ => rfl) (by simp)
    case slot | cellSeen | moveDone | gripper | accessorFaultReport | loadedReady | loadFailed | unloadPressed
        | reelRemoved | cleanNeeded | online | offline | holding | reconcileQueryExpiry | threadingLimitExpiry
        | unloadLimitExpiry =>
      refine keepsState_of_event (fun _ => rfl) fun g l => ?_
      split <;> simp
    case unloaded | driveFaultReport =>
      refine keepsState_of_event (fun _ => rfl) fun g l => ?_
      split
      · split <;> simp
      · rfl
    all_goals cases hc

/-- Settles O8: each other command keeps the library state. -/
theorem libraryStateChangesOnlyAt : Obligations.LibraryStateChangesOnlyAt := by
  unfold Obligations.LibraryStateChangesOnlyAt
  exact fun c s t ht hpower hready hformat hbyte => keepsState hpower hready hformat hbyte s t ht

end Sys2Proof.Machine
end

section
/-! POWER_ON and the store check (R175, R179): the header found decides between STARTING and UNFORMATTED. -/

namespace Sys2Proof.Machine

namespace Lib

/-! ## The store check -/

/-- The volatile records at power-on: STARTING, before the store check, over the header found (R177, R186). -/
theorem powered_base (store : Store) (l : Lib) : (l.powered store).base =
    { store := store, state := .starting, phase := .storeCheck, limit := .running 600, clearing := false } := by
  unfold powered
  split <;> rfl

theorem placeAllOnScratch_base (l : Lib) : l.placeAllOnScratch.base = l.base :=
  congrArg Fixed.base (placeAllOnScratch_fixed l)

/-- The reconcile phase begins, and its queries and losses leave the header and the library state (R180, R182). -/
theorem reconcile_base (g : Settings) (l : Lib) : (l.reconcile g).base = { l.base with phase := .reconcile } := by
  unfold reconcile
  dsimp only
  rw [foldl_base _ (settleStation_base g), sendQuery_base, sendQuery_base, foldl_base _ (queryDrive_base g),
    foldl_base _ (loseUndefined_base g)]
  rfl

/-- Over a good image start-up goes on to its reconcile phase (R179). -/
theorem storeCheck_good (g : Settings) {l : Lib} (h : l.goodImage = true) :
    (l.storeCheck g).base = { l.base with phase := .reconcile } := by
  unfold storeCheck
  rw [if_pos h]
  dsimp only
  rw [reconcile_base]
  refine congrArg (fun b : Base => { b with phase := .reconcile }) ?_
  exact (evalLow_base g _).trans (placeAllOnScratch_base _)

/-- A bad image leaves the library UNFORMATTED, its start limit stopped (R179, R186). -/
theorem storeCheck_bad (g : Settings) {l : Lib} (h : l.goodImage = false) :
    (l.storeCheck g).base = { l.base with state := .unformatted, limit := .stopped } := by
  unfold storeCheck
  rw [if_neg (ne_true_of_eq_false h)]
  rfl

end Lib

/-! ## POWER_ON -/

/-- What power-on makes of the header and the library state over a header found, good or bad (R175, R179). -/
def Base.powered (store : Store) : Base :=
  if store.mark && store.checked then
    { store := store, state := .starting, phase := .reconcile, limit := .running 600, clearing := false }
  else { store := store, state := .unformatted, phase := .storeCheck, limit := .stopped, clearing := false }

/-- The store check of a library just powered, over the header found (R179). -/
theorem Lib.storeCheck_powered (g : Settings) {l : Lib} {store : Store} (h : l.base =
    { store := store, state := .starting, phase := .storeCheck, limit := .running 600, clearing := false }) :
    (l.storeCheck g).base = Base.powered store := by
  have himage : l.goodImage = (store.mark && store.checked) :=
    congrArg (fun b : Base => b.store.mark && b.store.checked) h
  unfold Base.powered
  split
  · next hgood => rw [Lib.storeCheck_good g (himage.trans hgood), h]
  · next hbad => rw [Lib.storeCheck_bad g (himage.trans (eq_false_of_ne_true hbad)), h]

/-- The store check of POWER_ON takes the header as the loss of power left it; the answers to START before it, and
what settling the step adds, change neither header nor library state. -/
theorem exec_powerOn (unit : Nat) (kept doorOpen serviceOpen : Bool) (slots : List Reading) (s : State) :
    ∃ l : Lib, exec (.powerOn unit kept doorOpen serviceOpen slots) s
        = .next { s with set := Settings.powerOn (unit % 8), port := Port.powerOn, lib := l }
      ∧ l.base = Base.powered (s.lib.store.afterLoss s.lib.start.clearing kept) := by
  refine ⟨_, rfl, (Lib.settle_base ..).trans (Lib.storeCheck_powered _ ((Lib.answers_base ..).trans ?_))⟩
  exact Lib.powered_base (s.lib.store.afterLoss s.lib.start.clearing kept) s.lib

/-- Settles O10: the store check over the header that the loss of power left. -/
theorem powerOnMakesStoreCheck : Obligations.PowerOnMakesStoreCheck := by
  unfold Obligations.PowerOnMakesStoreCheck
  intro unit kept doorOpen serviceOpen slots s
  obtain ⟨l, hexec, hbase⟩ := exec_powerOn unit kept doorOpen serviceOpen slots s
  refine ⟨l, hexec, ?_⟩
  generalize s.lib.store.afterLoss s.lib.start.clearing kept = store at hbase
  have hstore : l.store = store := (congrArg Base.store hbase).trans (by unfold Base.powered; split <;> rfl)
  rw [hstore]
  unfold Base.powered at hbase
  split at hbase
  · next h =>
    exact ⟨rfl, fun _ => ⟨congrArg Base.state hbase, congrArg Base.phase hbase, congrArg Base.limit hbase⟩,
      fun hbad => absurd (Bool.and_eq_true_iff.1 h) hbad⟩
  · next h =>
    exact ⟨rfl, fun hgood => absurd (Bool.and_eq_true_iff.2 hgood) h,
      fun _ => ⟨congrArg Base.state hbase, congrArg Base.limit hbase⟩⟩

end Sys2Proof.Machine
end

section
/-! Set Clock and Set Timers (R189, R190): the accounts and requests that a load of the clock settles (R160), the
deadlines that it moves, and what a change of the timer values does at once. -/

namespace Sys2Proof.Machine

/-! ## The settling of an account -/

/-- The account with the seconds of one MOUNTED request accrued (R156, R157, R160). -/
def Account.settled (a : Account) (seconds : Nat) : Account := (a.addSeconds seconds).stamped

theorem Account.settled_eq (a : Account) (seconds : Nat) : a.settled seconds = { a with
    driveSeconds := if a.driveSeconds + seconds ≤ 4294967295 then a.driveSeconds + seconds else 4294967295
    overflow := if a.driveSeconds + seconds ≤ 4294967295 then a.overflow else true
    stamp := (a.stamp + 1) % 65536 } := by
  unfold Account.settled Account.addSeconds addTotal max32
  split <;> rfl

@[simp] theorem Account.settled_number (a : Account) (seconds : Nat) : (a.settled seconds).number = a.number := rfl

/-- The account with its last read time cleared (R160). -/
def Account.unread (a : Account) : Account := { a with lastRead := none }

/-- The seconds a request has accrued for account `n` by the reading `old`, where it accrues for it (R160). -/
def Request.unsettled (old : Clock) (n : Nat) (r : Request) : Option Nat :=
  if r.account = some n then r.accruedFrom.map fun c => c.elapsed old else none

/-- The request accrues for an account (R72, R156). -/
def Request.accrues (r : Request) : Bool := r.account.isSome && r.accruedFrom.isSome

/-- A request that accrues from a new reading on. -/
def Request.accruing (new : Clock) (r : Request) : Request := { r with accruedFrom := some new }

namespace Lib

/-- `m` differs from `l` in the accounts and the live requests at most. -/
def SettledOnly (l m : Lib) : Prop :=
  m = { l with acct := { l.acct with accounts := m.acct.accounts }, reqs := { l.reqs with live := m.reqs.live } }

theorem SettledOnly.refl (l : Lib) : SettledOnly l l := rfl

theorem SettledOnly.trans {l m n : Lib} (h : SettledOnly l m) (k : SettledOnly m n) : SettledOnly l n := by
  unfold SettledOnly at *; rw [k, h]

/-- What follows of the accounts, the live requests, the prompts and the messages sent. -/
theorem SettledOnly.prompts {l m n : Lib} (h : SettledOnly l m) (k : PromptsOnly m n) : n = { l with
    acct := { l.acct with accounts := n.acct.accounts }, reqs := { l.reqs with live := n.reqs.live }
    prompts := n.prompts, out := n.out } := by
  unfold SettledOnly PromptsOnly at *; rw [k, h]

section
variable (old new : Clock)

/-- A request that accrues for no account settles nothing. -/
theorem settleMounted_of_not (l : Lib) {r : Request} (h : r.accrues = false) : l.settleMounted old new r = l := by
  unfold settleMounted
  split
  · next ha hf => simp [Request.accrues, ha, hf] at h
  · rfl

/-- A request that accrues for an account is settled there, and accrues from the new reading on. -/
theorem settleMounted_of_accrues (l : Lib) {r : Request} {n : Nat} {c : Clock} (ha : r.account = some n)
    (hf : r.accruedFrom = some c) : l.settleMounted old new r
      = (l.updAcct n fun a => a.settled (c.elapsed old)).updReq r.tag (Request.accruing new) := by
  unfold settleMounted
  rw [ha, hf]
  rfl

theorem settleMounted_only (l : Lib) (r : Request) : SettledOnly l (l.settleMounted old new r) := by
  unfold settleMounted
  split <;> rfl

theorem settleMounted_account? (l : Lib) (r : Request) (n : Nat) : (l.settleMounted old new r).account? n
    = (l.account? n).map fun a => (r.unsettled old n).toList.foldl Account.settled a := by
  cases hr : r.accrues
  · rw [settleMounted_of_not old new l hr]
    have hnone : r.unsettled old n = none := by
      unfold Request.unsettled
      split
      · next ha => simpa [Request.accrues, ha] using hr
      · rfl
    simp [hnone]
  · obtain ⟨⟨m, ha⟩, c, hc⟩ : (∃ m, r.account = some m) ∧ ∃ c, r.accruedFrom = some c := by
      simpa [Request.accrues, Option.isSome_iff_exists] using hr
    rw [settleMounted_of_accrues old new l ha hc]
    change (l.updAcct m _).account? n = _
    by_cases hn : n = m
    · subst hn
      rw [account?_updAcct_self _ _ l (fun a => a.settled_number _)]
      simp [Request.unsettled, ha, hc]
    · rw [account?_updAcct_other _ _ _ l hn (fun a => a.settled_number _)]
      simp [Request.unsettled, ha, Ne.symm hn]

/-- A request as the settling of the requests `rs` leaves it: where one of them has its tag and accrues for an account,
it accrues from the new reading on. -/
def settledReq (rs : List Request) (q : Request) : Request :=
  if rs.any fun r => r.accrues && r.tag = q.tag then q.accruing new else q

theorem settledReq_tag (rs : List Request) (q : Request) : (settledReq new rs q).tag = q.tag := by
  unfold settledReq; split <;> rfl

theorem settledReq_cons (r : Request) (rs : List Request) (q : Request) :
    settledReq new rs (settledReq new [r] q) = settledReq new (r :: rs) q := by
  have htag := settledReq_tag new [r] q
  unfold settledReq at htag ⊢
  rw [htag, List.any_cons, List.any_cons, List.any_nil, Bool.or_false]
  cases r.accrues && decide (r.tag = q.tag) <;> cases rs.any _ <;> rfl

theorem settleMounted_live (l : Lib) (r : Request) :
    (l.settleMounted old new r).reqs.live = l.reqs.live.map (settledReq new [r]) := by
  cases hr : r.accrues
  · rw [settleMounted_of_not old new l hr]
    exact ((List.map_congr_left fun q _ => by simp [settledReq, hr]).trans (List.map_id _)).symm
  · obtain ⟨⟨m, ha⟩, c, hc⟩ : (∃ m, r.account = some m) ∧ ∃ c, r.accruedFrom = some c := by
      simpa [Request.accrues, Option.isSome_iff_exists] using hr
    rw [settleMounted_of_accrues old new l ha hc]
    exact List.map_congr_left fun q _ => by simp [settledReq, hr, eq_comm]

/-! ## The settling of all -/

theorem foldl_settleMounted_only (rs : List Request) (l : Lib) :
    SettledOnly l (rs.foldl (fun l r => l.settleMounted old new r) l) := by
  induction rs generalizing l with
  | nil => exact .refl l
  | cons r rs ih => exact (settleMounted_only old new l r).trans (ih _)

theorem foldl_settleMounted_account? (rs : List Request) (l : Lib) (n : Nat) :
    (rs.foldl (fun l r => l.settleMounted old new r) l).account? n
      = (l.account? n).map fun a => (rs.filterMap (Request.unsettled old n)).foldl Account.settled a := by
  induction rs generalizing l with
  | nil => simp
  | cons r rs ih =>
    rw [List.foldl_cons, ih, settleMounted_account?, Option.map_map]
    congr 1
    funext a
    cases h : r.unsettled old n <;> simp [h]

theorem foldl_settleMounted_live (rs : List Request) (l : Lib) :
    (rs.foldl (fun l r => l.settleMounted old new r) l).reqs.live = l.reqs.live.map (settledReq new rs) := by
  induction rs generalizing l with
  | nil => exact (List.map_id _).symm
  | cons r rs ih =>
    rw [List.foldl_cons, ih, settleMounted_live, List.map_map]
    exact List.map_congr_left fun q _ => settledReq_cons new r rs q

/-! ## The load of the clock -/

/-- The requests that a load of the clock settles. -/
def mounted (l : Lib) : List Request := l.reqs.live.filter fun r => r.state = .mounted

theorem settleClock_only (l : Lib) : SettledOnly l (l.settleClock old new) :=
  (foldl_settleMounted_only old new l.mounted l).trans rfl

theorem settleClock_live (l : Lib) :
    (l.settleClock old new).reqs.live = l.reqs.live.map (settledReq new l.mounted) :=
  foldl_settleMounted_live old new l.mounted l

theorem settleClock_account? (l : Lib) (n : Nat) : (l.settleClock old new).account? n = (l.account? n).map fun a =>
    ((l.mounted.filterMap (Request.unsettled old n)).foldl Account.settled a).unread := by
  have hunread : (l.settleClock old new).account? n
      = ((l.mounted.foldl (fun l r => l.settleMounted old new r) l).account? n).map Account.unread :=
    List.find?_map_keep _ Account.unread (fun _ => rfl) _
  rw [hunread, foldl_settleMounted_account?, Option.map_map]
  rfl

theorem settleClock_lastRead (l : Lib) : ∀ a ∈ (l.settleClock old new).acct.accounts, a.lastRead = none := by
  simp [settleClock]

/-- A MOUNTED request with an account accrues from the new reading on. -/
theorem settleClock_accruing {l : Lib} {r : Request} (hr : r ∈ l.reqs.live) (hstate : r.state = .mounted)
    (haccrues : r.accrues = true) : r.accruing new ∈ (l.settleClock old new).reqs.live := by
  rw [settleClock_live]
  refine List.mem_map.2 ⟨r, hr, if_pos (List.any_eq_true.2 ⟨r, ?_, by simp [haccrues]⟩)⟩
  simpa [mounted] using ⟨hr, hstate⟩

/-- A request that is not MOUNTED stands. -/
theorem settleClock_req? {l : Lib} {t : Nat} (h : ∀ r ∈ l.reqs.live, r.tag = t → r.state ≠ .mounted) :
    (l.settleClock old new).req? t = l.req? t := by
  unfold req?
  rw [settleClock_live, List.find?_map_keep _ _ (fun q => by rw [settledReq_tag])]
  cases hq : l.reqs.live.find? (fun r => decide (r.tag = t)) with
  | none => rfl
  | some q =>
    have htag : q.tag = t := by simpa using List.find?_some hq
    refine congrArg some (if_neg fun hany => ?_)
    obtain ⟨r, hr, hmatch⟩ := List.any_eq_true.1 hany
    obtain ⟨hlive, hmounted⟩ : r ∈ l.reqs.live ∧ r.state = .mounted := by simpa [mounted] using hr
    obtain ⟨-, hrtag⟩ : r.accrues = true ∧ r.tag = q.tag := by simpa using hmatch
    exact h r hlive (hrtag.trans htag) hmounted

/-- Of the live requests the readings they accrue from change, and nothing else. -/
theorem settleClock_rest (l : Lib) :
    (l.settleClock old new).reqs.live.map (fun r => { r with accruedFrom := none })
      = l.reqs.live.map fun r => { r with accruedFrom := none } := by
  rw [settleClock_live, List.map_map]
  refine List.map_congr_left fun q _ => ?_
  simp only [Function.comp_apply, settledReq]
  split <;> rfl

end

/-! ## Set Clock -/

theorem posted?_of_prompts {l m : Lib} (h : m.prompts = l.prompts) (n : Nat) : m.posted? n = l.posted? n := by
  unfold posted? numbered
  rw [h]

theorem account?_of_acct {l m : Lib} (h : m.acct = l.acct) (n : Nat) : m.account? n = l.account? n := by
  unfold account?
  rw [h]

end Lib

/-- What Set Clock does with a reading in its range (R160, R190). -/
theorem exec_setClock {day second : Nat} {s : State} (hl : s.live) (hstate : s.lib.start.state ≠ .formatting)
    (hday : day ≤ 65535) (hsecond : second ≤ 86399) :
    exec (.setClock day second) s = .next (s.after { s.set with clock := ⟨day, second⟩, clockSet := true }
      ((s.lib.begin.settleClock s.set.clock ⟨day, second⟩).moveDeadlines s.set.clock ⟨day, second⟩)
      (.good [])) := by
  refine exec_good_quiet _ _ s hl rfl _ _ _ (unformattedToo_checks_of_forall (l := s.lib.begin) hstate _ _ _ ?_) ?_
  · simp [max16, hday, hsecond]
  · rw [(Lib.moveDeadlines_only _ _ _).notes, Lib.settleClock_only _ _ s.lib.begin]
    rfl

/-! ## Set Timers -/

theorem setting_eq (c : Change) (old : Nat) : setting c old = if c.flag = 1 then c.value else old := by
  simp [setting, Change.named]

namespace Lib

/-- The records with the period timer started again where the period length changes (R161). -/
def periodChanged (old new : Settings) (l : Lib) : Lib :=
  { l with acct := { l.acct with
      periodLeft := if new.timers.period = old.timers.period then l.acct.periodLeft else new.timers.period } }

theorem timersChanged_eq (old new : Settings) (l : Lib) : l.timersChanged old new
    = if new.timers.threshold = old.timers.threshold then l.periodChanged old new
      else (l.periodChanged old new).evalLow new := by
  unfold timersChanged periodChanged
  split <;> rfl

/-- The evaluation of the scratch-low condition changes the condition of the catalogue, and what follows of it. -/
theorem evalLow_eq (g : Settings) (l : Lib) : l.evalLow g = { l with
    cat := { l.cat with low := (l.evalLow g).cat.low }, prompts := (l.evalLow g).prompts, out := (l.evalLow g).out
    notes := (l.evalLow g).notes } := by
  have hcat : (l.evalLow g).cat = { l.cat with low := (l.evalLow g).cat.low } := by
    dsimp only
    rw [← evalLow_vols g l, ← evalLow_scratch g l]
  rw [← hcat]
  exact evalLow_only g l

end Lib

/-- What Set Timers does with values in their ranges (R189). -/
theorem exec_setTimers {f : TimersBlock} {s : State} (hl : s.live) (hs : s.serving) (hok : timersOk f = true) :
    let g : Settings := { s.set with timers := timersAfter f s.set.timers }
    exec (.setTimers f) s = .next (s.after g ((s.lib.begin.timersChanged s.set g).settle g)
      (.good (timersFields (timersAfter f s.set.timers)))) :=
  exec_good _ _ s hl rfl _ _ _ (gated_checks_of_forall hs _ _ _ _ (by simpa using hok))

/-- Settles O21: Set Clock by what settles the accounts and moves the deadlines, Set Timers by the two values whose
change does more. -/
theorem setClockAndTimers : Obligations.SetClockAndTimers := by
  unfold Obligations.SetClockAndTimers
  constructor
  · intro day second s hl hstate hday hsecond new settled seconds moved slots
    have hsettled : settled = Account.settled := by
      funext a n
      exact (Account.settled_eq a n).symm
    have honly := Lib.settleClock_only s.set.clock new s.lib.begin
    generalize hm : s.lib.begin.settleClock s.set.clock new = m at honly
    have hmoved := Lib.moveDeadlines_only s.set.clock new m
    have hprompts : m.prompts = s.lib.prompts := by rw [honly]; rfl
    have hout : m.out = [] := by rw [honly]; rfl
    refine ⟨m.moveDeadlines s.set.clock new, hm ▸ exec_setClock hl hstate hday hsecond, ?_, fun hkept => ?_,
      fun n k p hn hp hchanged => ?_, fun n a ha => ?_, ?_, fun r hr hmounted haccount hfrom => ?_, fun tag hrest => ?_,
      ?_⟩
    · exact honly.prompts hmoved
    · rw [Lib.moveDeadlines_quiet s.set.clock new m fun n k p hn hp =>
        hkept n k p (hprompts ▸ hn) (Lib.posted?_of_prompts hprompts n ▸ hp)]
      exact ⟨congrArg (fun u : PromptUnit => { u with slots := u.slots.map (Option.map moved) }) hprompts, hout⟩
    · intro q shown
      rw [Lib.moveDeadlines_shown s.set.clock new m n k p (hprompts ▸ hn)
        ((Lib.posted?_of_prompts hprompts n).trans hp) hchanged]
      exact ⟨congrArg (fun u : PromptUnit => { u with
        slots := (u.slots.map (Option.map moved)).set k (some q), lastSent := some shown }) hprompts,
        by rw [hout]; rfl⟩
    · rw [Lib.account?_of_acct hmoved.acct, ← hm, Lib.settleClock_account?, begin_account?, ha, hsettled]
      rfl
    · rw [hmoved.acct, ← hm]
      exact Lib.settleClock_lastRead _ _ _
    · rw [hmoved.reqs, ← hm]
      refine Lib.settleClock_accruing _ _ hr hmounted ?_
      simp [Request.accrues, Option.isSome_iff_ne_none, haccount, hfrom]
    · rw [Lib.req?_of_live (congrArg RequestTable.live hmoved.reqs), ← hm]
      exact Lib.settleClock_req? _ _ hrest
    · rw [hmoved.reqs, ← hm]
      exact Lib.settleClock_rest _ _ _
  · intro f s hl hs hok
    refine ⟨timersAfter f s.set.timers, _, setting_eq .., setting_eq .., setting_eq .., setting_eq .., setting_eq ..,
      setting_eq .., setting_eq .., setting_eq .., exec_setTimers hl hs hok, ?_⟩
    rw [Lib.timersChanged_eq]
    split
    · exact ⟨rfl, rfl, rfl, fun _ => ⟨rfl, rfl, rfl⟩⟩
    · next hchanged =>
      refine ⟨(Lib.evalLow_eq _ _).trans ?_, congrArg Accounting.periodLeft (Lib.evalLow_acct _ _),
        Lib.evalLow_low _ _, fun hsame => absurd hsame hchanged⟩
      rw [Lib.evalLow_acct]
      rfl

end Sys2Proof.Machine
end

section
/-! The phases of start-up: the audit phase and its runs (R184), the entry to READY (R185), and the start limit
(R186). -/

namespace Sys2Proof.Machine

namespace Lib

/-! ## The audits of start-up -/

theorem createAudit_cat (g : Settings) (c : Span) (b : Bool) (l : Lib) : (l.createAudit g c b).2.cat = l.cat := by
  unfold createAudit
  dsimp only
  rw [enterQueued_cat]
  rfl

/-- The audits of start-up carry no volume, and leave the catalogue. -/
theorem makeRuns_cat (g : Settings) (runs : List Span) (l : Lib) : (makeRuns g runs l).cat = l.cat := by
  induction runs generalizing l with
  | nil => rfl
  | cons c cs ih =>
    unfold makeRuns
    split
    · exact (ih _).trans (createAudit_cat g c false l)
    · rfl

/-- The cursors of audits made one for each run. -/
theorem AuditOf.cursors {audits : List Request} {runs : List Span} (h : List.Forall₂ AuditOf audits runs) :
    audits.map Request.cursor = runs.map fun r => some { next := r.lo, first := r.lo, last := r.hi } := by
  induction h with
  | nil => rfl
  | cons hq _ ih =>
    obtain ⟨-, -, -, -, hcursor⟩ := hq
    rw [List.map_cons, List.map_cons, hcursor, ih]

theorem AuditOf.exists_of_mem {audits : List Request} {runs : List Span} (h : List.Forall₂ AuditOf audits runs)
    {q : Request} (hq : q ∈ audits) : ∃ c, AuditOf q c := by
  induction h with
  | nil => cases hq
  | cons hfirst _ ih =>
    obtain rfl | hrest := List.mem_cons.1 hq
    · exact ⟨_, hfirst⟩
    · exact ih hrest

/-- The columns to be audited: every one in FULL mode, in QUICK mode those of the cells recorded AWAITED (R184). -/
def auditColumns (l : Lib) : List Nat :=
  if l.store.lib.fullStart then List.range l.columns else l.columnsOf l.start.awaited

theorem mem_auditColumns {l : Lib} {c : Nat} : c ∈ l.auditColumns ↔
    c < l.columns ∧ (l.store.lib.fullStart = true ∨ ∃ n ∈ l.start.awaited, l.cellCol n = c) := by
  unfold auditColumns
  split
  · next h => simp [h]
  · next h => simp [h, columnsOf]

theorem auditColumns_ascending (l : Lib) : l.auditColumns.Pairwise (· < ·) := by
  unfold auditColumns
  split
  · exact List.pairwise_lt_range
  · exact List.pairwise_lt_range.filter _

/-- The records at the beginning of the audit phase, before its audits are made. -/
def auditing (l : Lib) : Lib := { l with start := { l.start with phase := .audit, audits := [] } }

theorem beginAudits_eq (g : Settings) (l : Lib) : l.beginAudits g = makeRuns g (runsOf l.auditColumns) l.auditing := rfl

theorem beginAudits_base (g : Settings) (l : Lib) : (l.beginAudits g).base = { l.base with phase := .audit } :=
  makeRuns_base g _ l.auditing

/-- With no column to be audited none is (R184). -/
theorem beginAudits_none (g : Settings) {l : Lib} (hquick : l.store.lib.fullStart = false)
    (hawaited : l.start.awaited = []) :
    l.beginAudits g = { l with start := { l.start with phase := .audit, audits := [], runs := [] } } := by
  have hnone : l.auditColumns = [] := by simp [auditColumns, hquick, hawaited, columnsOf]
  rw [beginAudits_eq, hnone]
  rfl

end Lib

theorem exec_auditPhase {s : State} (hl : s.live) (hstate : s.found.start.state = .starting)
    (hphase : s.found.start.phase = .reconcile) (hreconciled : s.found.reconciled = true)
    (hhomed : s.found.homed = true) : exec .auditPhase s = .next (s.settled (s.found.beginAudits s.set)) := by
  refine exec_event _ _ s hl rfl _ ?_
  simp [Lib.toAudits, hstate, hphase, hreconciled, hhomed]

/-- Settles O45: the runs of the chosen columns, and the audits made for the first of them. -/
theorem auditPhaseBegins : Obligations.AuditPhaseBegins := by
  unfold Obligations.AuditPhaseBegins
  intro s hl hstate hphase hreconciled hhomed
  have hbase := Lib.beginAudits_base s.set s.found
  refine ⟨_, exec_auditPhase hl hstate hphase hreconciled hhomed, congrArg Base.phase hbase,
    (congrArg Base.state hbase).trans hstate, Lib.makeRuns_cat s.set _ s.found.auditing, ?_,
    Lib.beginAudits_none s.set⟩
  intro chosen free
  obtain ⟨audits, hlive, hfor, hfresh, htags, hruns⟩ :=
    Lib.makeRuns_live s.set (Lib.runsOf s.found.auditColumns) s.found.auditing
  obtain ⟨hcover, hordered, happart⟩ := Lib.runsOf_spec _ s.found.auditColumns_ascending
  refine ⟨_, audits, fun c => Lib.mem_auditColumns.symm.trans (hcover c), hordered, happart, hlive,
    Lib.AuditOf.cursors hfor, fun q hq => ?_, htags, hruns⟩
  obtain ⟨c, hkind, horigin, hpriority, hqueued, -⟩ := Lib.AuditOf.exists_of_mem hfor hq
  exact ⟨hkind, horigin, hpriority, hqueued, hfresh q hq⟩

/-! ## Entry to READY -/

theorem Lib.foldl_raiseDrive_att (x : Source) (ds : List Nat) (l : Lib) :
    (ds.foldl (fun l d => l.raiseDrive x d) l).att = l.att := by
  induction ds generalizing l with
  | nil => rfl
  | cons d ds ih => exact (ih _).trans (Lib.raiseDrive_att ..)

/-- STARTUP-COMPLETE is set at the entry to READY (R171, R185). -/
theorem Lib.enterReady_cause (g : Settings) (l : Lib) :
    (l.enterReady g).att.causes.getLsbD causeStartupComplete = true := by
  unfold Lib.enterReady
  dsimp only
  rw [Lib.wake_att, Lib.foldl_raiseDrive_att]
  simp [Lib.setCause, causeStartupComplete]

/-- The entry to READY changes the library state and stops the start limit (R185, R186). -/
theorem Lib.enterReady_fixed (g : Settings) (l : Lib) :
    (l.enterReady g).fixed = { l.fixed with state := .ready, limit := .stopped } := by
  unfold Lib.enterReady
  dsimp only
  rw [Lib.wake_fixed, Lib.foldl_fixed _ fun l d => Lib.raiseDrive_fixed .cleaningDue d l, Lib.setCause_fixed]
  have hheld := Lib.foldl_fixed _ (fun l t => Lib.leaveHeld_fixed g t l) l.heldTags
    { l with start := { l.start with state := .ready, limit := .stopped } }
  split
  · exact (Lib.scan_fixed g _).trans hheld
  · exact hheld

theorem exec_enterReady {s : State} (hl : s.live) (hmay : s.found.mayEnter = true) :
    exec .enterReady s = .next (s.settled (s.found.enterReady s.set)) :=
  exec_event _ _ s hl rfl _ (if_pos hmay)

/-! ## The start limit -/

/-- The records with the start limit expired, before the HELD requests end (R186). -/
def Lib.limitExpired (l : Lib) : Lib := { l with start := { l.start with limit := .expired } }

theorem Lib.startExpired_eq (g : Settings) {l : Lib} (h : l.start.limit = .running 0) : l.startExpired g
    = (l.heldTags.foldl (fun l t => l.complete g t .notReady) l.limitExpired).orderJoined l.cat.scratch :=
  if_pos h

theorem Lib.startExpired_fixed (g : Settings) {l : Lib} (h : l.start.limit = .running 0) :
    (l.startExpired g).fixed = { l.fixed with limit := .expired } := by
  rw [Lib.startExpired_eq g h, Lib.orderJoined_fixed,
    Lib.foldl_fixed _ fun l t => Lib.complete_fixed g t .notReady l]
  rfl

theorem exec_startLimitExpiry {s : State} (hl : s.live) :
    exec .startLimitExpiry s = .next (s.settled (s.found.startExpired s.set)) :=
  exec_event _ _ s hl rfl _ rfl

/-- The HELD requests of a table of one. -/
theorem Lib.heldTags_single {l : Lib} {r : Request} (hr : l.reqs.live = [r]) (hheld : r.state = .held) :
    l.heldTags = [r.tag] := by
  simp [Lib.heldTags, hr, hheld, sortBy, insertBy]

/-- The one HELD request of the host ends NOT-READY (R71, R186). -/
theorem Lib.req?_startExpired (g : Settings) {l : Lib} {r : Request} (h : l.start.limit = .running 0)
    (hr : l.reqs.live = [r]) (hheld : r.state = .held) (horigin : r.origin = .link) (hcode : r.code = none) :
    ∃ q, (l.startExpired g).req? r.tag = some q ∧ q.state = .done ∧ q.code = some .notReady := by
  have hfound : l.limitExpired.req? r.tag = some r := by simp [Lib.req?, Lib.limitExpired, hr]
  rw [startExpired_eq g h, heldTags_single hr hheld]
  exact ⟨_, req?_complete_self g r.tag .notReady _ r hfound (by simp [hheld]) horigin, rfl, by simp [hcode]⟩

/-- Settles O46: the entry to READY, and the start limit. -/
theorem startUpEnds : Obligations.StartUpEnds := by
  unfold Obligations.StartUpEnds
  refine ⟨fun s hl hmay => ⟨_, exec_enterReady hl hmay, Lib.enterReady_cause s.set _, rfl,
    Lib.enterReady_fixed s.set _, Lib.settle_fixed s.set _⟩, fun s hl hlimit => ⟨⟨_, exec_startLimitExpiry hl,
    (Lib.settle_fixed s.set _).trans (Lib.startExpired_fixed s.set hlimit)⟩, fun r hr hheld horigin hcode => ?_⟩⟩
  obtain ⟨q, hq, hdone, hnotReady⟩ := Lib.req?_startExpired s.set hlimit hr hheld horigin hcode
  exact ⟨_, q, exec_startLimitExpiry hl, hq, hdone, hnotReady⟩

end Sys2Proof.Machine
end

section
/-! The queue (log 4) and the request link port (R192 to R197): the queue's front, the beginning of a connection, and
the bytes that it moves. -/

namespace Sys2Proof.Machine

/-- Settles O1: `step` matches on the queue, and each of its cases is one clause. -/
theorem stepTakesFrontCommand : Obligations.StepTakesFrontCommand := by
  unfold Obligations.StepTakesFrontCommand
  refine ⟨fun c rest s hpending => ?_, fun s hpending => ?_⟩ <;> · unfold step; rw [hpending]

/-! ## Selection -/

theorem selects_iff {s : State} {data : Byte} {reset : Bool} : selects s data reset = true ↔
    s.port.conn = .free ∧ data = BitVec.ofNat 8 (2 ^ s.set.unit) ∧ reset = false := by
  simp [selects, and_assoc]

theorem exec_selection {s : State} (hl : s.live) (data : Byte) (reset : Bool) : exec (.selection data reset) s
    = .next { s with port := if selects s data reset then s.port.selected else s.port, lib := s.lib.begin } :=
  congrArg Host.Outcome.next (portStep_live _ s hl)

theorem exec_selectDropped {s : State} (hl : s.live) (hconn : s.port.conn = .selecting) : exec .selectDropped s
    = .next { s with port := { s.port with conn := .command }.ask, lib := s.lib.begin } := by
  change Host.Outcome.next (portStep _ s) = _
  rw [portStep_live _ s hl, if_pos hconn]

/-- Settles O11: `selects` decides whether the selection is answered. -/
theorem selectionBeginsConnection : Obligations.SelectionBeginsConnection := by
  unfold Obligations.SelectionBeginsConnection
  refine ⟨fun data reset s hl => ⟨fun hfree hdata hreset => ?_, fun hother => ?_⟩,
    fun s hl hconn => exec_selectDropped hl hconn⟩
  · rw [exec_selection hl, if_pos (selects_iff.mpr ⟨hfree, hdata, hreset⟩)]
    rfl
  · have hnot : ¬ selects s data reset = true := fun h => by
      obtain ⟨hfree, hdata, hreset⟩ := selects_iff.mp h
      simp [hfree, hdata, hreset] at hother
    rw [exec_selection hl, if_neg hnot]

/-! ## ACK_RELEASE -/

/-- A connection past its selection asks for or offers its next byte when nothing is offered (R193). -/
theorem nextByte_of_released {s : State} (hfree : s.port.conn ≠ .free) (hselecting : s.port.conn ≠ .selecting)
    (hreq : s.port.req = false) : nextByte s = { s.port with line := offered s }.ask := by
  simp [nextByte, Port.connected, hfree, hselecting, hreq]

/-- Settles O12: the byte is the one that `offered` forms for the phase. -/
theorem ackReleaseOffersNextByte : Obligations.AckReleaseOffersNextByte := by
  unfold Obligations.AckReleaseOffersNextByte
  refine fun s hl hreq hfree hselecting => ⟨offered s, ?_, fun hconn x xs hdata => ?_, fun hconn => ?_, fun hconn => ?_⟩
  · change Host.Outcome.next (portStep nextByte s) = _
    rw [portStep_live _ s hl, nextByte_of_released hfree hselecting hreq]
    rfl
  · simp [offered, hconn, hdata]
  · simp [offered, hconn]
  · simp [offered, hconn, endByte]

/-! ## BYTE_HANDSHAKE -/

section
variable {s : State} (byte : Byte) (hl : s.live) (hreq : s.port.req = true)
include hl hreq

theorem handshake_command (hconn : s.port.conn = .command) : handshake byte s = takeBlockByte byte s := by
  have hwarned : s.set.warned = false := hl
  simp [handshake, hwarned, hreq, hconn]

theorem handshake_dataOut (hconn : s.port.conn = .dataOut) : handshake byte s = takeOutByte byte s := by
  have hwarned : s.set.warned = false := hl
  simp [handshake, hwarned, hreq, hconn]

theorem exec_handshake_towardHost (hcommand : s.port.conn ≠ .command) (hdataOut : s.port.conn ≠ .dataOut) :
    exec (.byteHandshake byte) s = .next { s with port := s.port.offeredTaken, lib := s.lib.begin } := by
  change Host.Outcome.next (handshake byte s) = _
  unfold handshake
  rw [if_neg (ne_true_of_eq_false hl), if_neg (by simp [hreq])]
  split
  · next hconn => exact absurd hconn hcommand
  · next hconn => exact absurd hconn hdataOut
  · rfl

end

/-- The state that a byte of the block leaves before the port looks at the block (R194). -/
def State.withBlock (s : State) (byte : Byte) : State :=
  { s with port := { s.port.letGo with block := s.port.block ++ [byte] } }

/-- The state that a byte of the data-out leaves before the port looks at how many are to come (R195). -/
def State.withOut (s : State) (byte : Byte) : State :=
  { s with port := { s.port.letGo with outData := s.port.outData ++ [byte], outLeft := s.port.outLeft - 1 } }

section
variable {s : State} (byte : Byte)

theorem takeBlockByte_partial {n : Nat} (hgroup : blockLength ((s.port.block ++ [byte]).getD 0 0).toNat = some n)
    (hshort : s.port.block.length + 1 < n) :
    takeBlockByte byte s = { s.withBlock byte with lib := s.lib.begin } := by
  unfold takeBlockByte
  dsimp only
  rw [hgroup]
  exact if_pos (by simpa using hshort)

theorem takeBlockByte_whole (hgroup : blockLength ((s.port.block ++ [byte]).getD 0 0).toNat
    = some (s.port.block ++ [byte]).length) : takeBlockByte byte s = blockTaken (s.withBlock byte) := by
  unfold takeBlockByte
  dsimp only
  rw [hgroup]
  exact if_neg (lt_irrefl _)

theorem takeBlockByte_noGroup (hgroup : 0xC0 ≤ ((s.port.block ++ [byte]).getD 0 0).toNat) :
    takeBlockByte byte s = refuseByPort (.check .invalidCommand .none) (s.withBlock byte) := by
  have hnone : blockLength ((s.port.block ++ [byte]).getD 0 0).toNat = none := by
    unfold blockLength
    rw [if_neg (by omega), if_neg (by omega), if_neg (by omega)]
  unfold takeBlockByte
  dsimp only
  rw [hnone]
  rfl

theorem takeOutByte_partial (hmore : 1 < s.port.outLeft) :
    takeOutByte byte s = { s.withOut byte with lib := s.lib.begin } :=
  if_neg (show ¬ s.port.outLeft - 1 = 0 by omega)

theorem takeOutByte_last (hlast : s.port.outLeft = 1) : takeOutByte byte s = applyBlock (s.withOut byte) :=
  if_pos (show s.port.outLeft - 1 = 0 by omega)

end

/-- Settles O13: a block not yet whole takes the byte, and `Port.offeredTaken` gives the phase that follows. -/
theorem handshakeMovesOneByte : Obligations.HandshakeMovesOneByte := by
  unfold Obligations.HandshakeMovesOneByte
  refine ⟨fun byte n s hl hreq hconn hgroup hshort => ?_, fun byte s hl hreq => ⟨fun x xs hconn hdata => ?_,
    fun hconn => ?_, fun hconn => ?_⟩⟩
  · change Host.Outcome.next (handshake byte s) = _
    rw [handshake_command byte hl hreq hconn, takeBlockByte_partial byte hgroup hshort]
    rfl
  all_goals rw [exec_handshake_towardHost byte hl hreq (by simp [hconn]) (by simp [hconn])]
  · simp [Port.offeredTaken, Port.letGo, hconn, hdata, Config.ackStall]
  · simp [Port.offeredTaken, Port.letGo, hconn, Config.ackStall]
  · simp [Port.offeredTaken, hconn]

/-! ## The end of a block -/

/-- Where the port stands once it has ended a command by itself (R194, R195, R197). -/
def Port.refused (r : Result) (p : Port) : Port :=
  { p.ended r with conn := .status, inData := [], status := r.status }

theorem refuseByPort_eq (r : Result) (s : State) (h : r.data = []) :
    refuseByPort r s = { s with port := s.port.refused r, lib := s.lib.begin } := by
  simp [refuseByPort, Port.answer, Port.refused, h, dataBytes]

section
variable {s : State}

theorem blockTaken_unknown (hcode : knownCode (s.port.block.getD 0 0).toNat = false) :
    blockTaken s = refuseByPort (.check .invalidCommand .none) s := by
  simp only [blockTaken, hcode, Bool.not_false, if_true]

theorem takenInFormat_iff {code : Nat} : takenInFormat code = true ↔ code ∈ [0x00, 0x03, 0x0A, 0x18] := by
  simp [takenInFormat]

theorem blockTaken_busy (hcode : knownCode (s.port.block.getD 0 0).toNat = true)
    (hstate : s.lib.start.state = .formatting)
    (hturned : (s.port.block.getD 0 0).toNat ∉ [0x00, 0x03, 0x0A, 0x18]) : blockTaken s = refuseByPort .busy s := by
  have hturned' : takenInFormat (s.port.block.getD 0 0).toNat = false := by
    rw [← Bool.not_eq_true, takenInFormat_iff]
    exact hturned
  simp only [blockTaken, hcode, hstate, hturned', Bool.not_true, Bool.not_false, Bool.false_eq_true, if_false,
    decide_true, Bool.and_true, if_true]

/-- A block that the library state takes is judged by its parameter length (R195). -/
theorem blockTaken_taken (hcode : knownCode (s.port.block.getD 0 0).toNat = true)
    (htaken : s.lib.start.state = .formatting → (s.port.block.getD 0 0).toNat ∈ [0x00, 0x03, 0x0A, 0x18]) :
    blockTaken s =
      let code := (s.port.block.getD 0 0).toNat
      let n := if code < 0x40 then 0 else requiredLength code s.port.block
      if 0x40 ≤ code ∧ parameterLength code s.port.block ≠ n then
        refuseByPort (.check .invalidField (blockSubject s.port.block)) s
      else if n = 0 then applyBlock s
      else { s with port := { s.port with conn := .dataOut, outLeft := n }, lib := s.lib.begin } := by
  have hpass : ¬ (s.lib.start.state = .formatting ∧ takenInFormat (s.port.block.getD 0 0).toNat = false) :=
    fun ⟨hstate, hturned⟩ => Bool.false_ne_true (hturned.symm.trans (takenInFormat_iff.mpr (htaken hstate)))
  simp only [blockTaken, hcode, Bool.not_true, Bool.false_eq_true, if_false, Bool.and_eq_true, decide_eq_true_eq,
    Bool.not_eq_true', if_neg hpass]

theorem applyBlock_reserved (h : reservedZero (s.port.block.getD 0 0).toNat s.port.block = false) :
    applyBlock s = refuseByPort (.check .invalidField (blockSubject s.port.block)) s := by
  simp only [applyBlock, h, Bool.not_false, if_true]

end

/-! ## The lengths of the parameters -/

theorem number_singleton (b : Byte) : number [b] = b.toNat := by simp [number]

theorem number_pair (a b : Byte) : number [a, b] = 256 * a.toNat + b.toNat := by simp [number, Nat.mul_comm]

/-- The parameter length of a ten-byte block is its last byte (R195). -/
theorem parameterLength_ten {code : Nat} (hlo : 0x40 ≤ code) (hhi : code < 0x80) {block : List Byte}
    (h : block.length = 10) : parameterLength code block = (block.getD 9 0).toNat := by
  have hdrop : block.drop 9 = [block.getD 9 0] := by
    rw [List.drop_eq_getElem_cons (by omega), List.drop_eq_nil_of_le (by omega), List.getD_eq_getElem _ _ (by omega)]
  simp only [parameterLength, lengthBytes, h, if_neg (show ¬ code < 0x40 by omega), if_pos hhi]
  rw [hdrop, number_singleton]

/-- That of a sixteen-byte block is its last two (R195). -/
theorem parameterLength_sixteen {code : Nat} (hlo : 0x80 ≤ code) {block : List Byte} (h : block.length = 16) :
    parameterLength code block = 256 * (block.getD 14 0).toNat + (block.getD 15 0).toNat := by
  have hdrop : block.drop 14 = [block.getD 14 0, block.getD 15 0] := by
    rw [List.drop_eq_getElem_cons (by omega), List.drop_eq_getElem_cons (by omega), List.drop_eq_nil_of_le (by omega),
      List.getD_eq_getElem _ _ (by omega), List.getD_eq_getElem _ _ (by omega)]
  simp only [parameterLength, lengthBytes, h, if_neg (show ¬ code < 0x40 by omega),
    if_neg (show ¬ code < 0x80 by omega)]
  rw [hdrop, number_pair]

/-! ## A command spelled -/

section
variable {s : State} (byte : Byte) (hl : s.live) (hreq : s.port.req = true)
include hl hreq

theorem exec_handshake_whole (hconn : s.port.conn = .command)
    (hgroup : blockLength ((s.port.block ++ [byte]).getD 0 0).toNat = some (s.port.block ++ [byte]).length) :
    exec (.byteHandshake byte) s = .next (blockTaken (s.withBlock byte)) := by
  change Host.Outcome.next (handshake byte s) = _
  rw [handshake_command byte hl hreq hconn, takeBlockByte_whole byte hgroup]

theorem exec_handshake_lastOut (hconn : s.port.conn = .dataOut) (hlast : s.port.outLeft = 1) :
    exec (.byteHandshake byte) s = .next (applyBlock (s.withOut byte)) := by
  change Host.Outcome.next (handshake byte s) = _
  rw [handshake_dataOut byte hl hreq hconn, takeOutByte_last byte hlast]

end

/-- A block with no data-out applies its command at once (R195, R196). -/
theorem blockTaken_noOut {s : State} (hcode : knownCode (s.port.block.getD 0 0).toNat = true)
    (htaken : s.lib.start.state = .formatting → (s.port.block.getD 0 0).toNat ∈ [0x00, 0x03, 0x0A, 0x18])
    (hnoOut : 0x40 ≤ (s.port.block.getD 0 0).toNat → requiredLength (s.port.block.getD 0 0).toNat s.port.block = 0
      ∧ parameterLength (s.port.block.getD 0 0).toNat s.port.block = 0) : blockTaken s = applyBlock s := by
  rw [blockTaken_taken hcode htaken]
  dsimp only
  by_cases hgroup : (s.port.block.getD 0 0).toNat < 0x40
  · rw [if_pos hgroup, if_neg (by omega), if_pos rfl]
  · obtain ⟨hrequired, hparameter⟩ := hnoOut (by omega)
    rw [if_neg hgroup, hrequired, hparameter, if_neg (by omega), if_pos rfl]

/-- A block whose parameter length is the required one begins the DATA-OUT phase (R195). -/
theorem blockTaken_out {s : State} (hcode : knownCode (s.port.block.getD 0 0).toNat = true)
    (htaken : s.lib.start.state = .formatting → (s.port.block.getD 0 0).toNat ∈ [0x00, 0x03, 0x0A, 0x18])
    (hgroup : 0x40 ≤ (s.port.block.getD 0 0).toNat)
    (hrequired : 0 < requiredLength (s.port.block.getD 0 0).toNat s.port.block)
    (hparameter : parameterLength (s.port.block.getD 0 0).toNat s.port.block
      = requiredLength (s.port.block.getD 0 0).toNat s.port.block) :
    blockTaken s = { s with
      port := { s.port with conn := .dataOut, outLeft := requiredLength (s.port.block.getD 0 0).toNat s.port.block }
      lib := s.lib.begin } := by
  rw [blockTaken_taken hcode htaken]
  dsimp only
  rw [if_neg (show ¬ (s.port.block.getD 0 0).toNat < 0x40 by omega), hparameter, if_neg (by omega),
    if_neg (by omega)]

theorem blockTaken_badLength {s : State} (hcode : knownCode (s.port.block.getD 0 0).toNat = true)
    (htaken : s.lib.start.state = .formatting → (s.port.block.getD 0 0).toNat ∈ [0x00, 0x03, 0x0A, 0x18])
    (hgroup : 0x40 ≤ (s.port.block.getD 0 0).toNat)
    (hparameter : parameterLength (s.port.block.getD 0 0).toNat s.port.block
      ≠ requiredLength (s.port.block.getD 0 0).toNat s.port.block) :
    blockTaken s = refuseByPort (.check .invalidField (blockSubject s.port.block)) s := by
  rw [blockTaken_taken hcode htaken]
  dsimp only
  rw [if_neg (show ¬ (s.port.block.getD 0 0).toNat < 0x40 by omega), if_pos ⟨hgroup, hparameter⟩]

/-- Settles O14: each clause names the branch of `blockTaken` or `applyBlock` that the byte reaches; a command spelled
is applied as its own row by `applyBlock_spelled`. -/
theorem handshakeAppliesCommand : Obligations.HandshakeAppliesCommand := by
  unfold Obligations.HandshakeAppliesCommand
  refine ⟨fun byte s hl hreq => ⟨fun hconn => ?_, fun hconn => ?_⟩, fun block => ?_⟩
  · have hwhole := exec_handshake_whole byte hl hreq hconn
    refine ⟨fun c ⟨hgroup, hcode, htaken⟩ hnoOut hreserved hspelled t ht => ?_,
      fun ⟨hgroup, hcode, htaken⟩ hlong hrequired hparameter => ?_, fun hcode => ?_, fun hgroup hcode => ?_,
      fun hgroup hcode hstate hturned => ?_, fun ⟨hgroup, hcode, htaken⟩ hlong hparameter => ?_,
      fun ⟨hgroup, hcode, htaken⟩ hnoOut hreserved => ?_⟩
    · obtain ⟨r, hr, happly⟩ := applyBlock_spelled (s.withBlock byte) t c hl hreserved hspelled ht
      refine ⟨r, hr, ?_⟩
      rw [hwhole hgroup, blockTaken_noOut (s := s.withBlock byte) hcode htaken hnoOut, happly]
    · rw [hwhole hgroup, blockTaken_out (s := s.withBlock byte) hcode htaken hlong hrequired hparameter]
      rfl
    · change Host.Outcome.next (handshake byte s) = _
      rw [handshake_command byte hl hreq hconn, takeBlockByte_noGroup byte hcode, refuseByPort_eq _ _ rfl]
      rfl
    · rw [hwhole hgroup, blockTaken_unknown (s := s.withBlock byte) hcode, refuseByPort_eq _ _ rfl]
      rfl
    · rw [hwhole hgroup, blockTaken_busy (s := s.withBlock byte) hcode hstate hturned, refuseByPort_eq _ _ rfl]
      rfl
    · rw [hwhole hgroup, blockTaken_badLength (s := s.withBlock byte) hcode htaken hlong hparameter,
        refuseByPort_eq _ _ rfl]
      rfl
    · rw [hwhole hgroup, blockTaken_noOut (s := s.withBlock byte) hcode htaken hnoOut,
        applyBlock_reserved (s := s.withBlock byte) hreserved, refuseByPort_eq _ _ rfl]
      rfl
  · refine ⟨fun hmore => ?_, fun c hlast hreserved hspelled t ht => ?_, fun hlast hreserved => ?_⟩
    · change Host.Outcome.next (handshake byte s) = _
      rw [handshake_dataOut byte hl hreq hconn, takeOutByte_partial byte hmore]
      rfl
    · obtain ⟨r, hr, happly⟩ := applyBlock_spelled (s.withOut byte) t c hl hreserved hspelled ht
      refine ⟨r, hr, ?_⟩
      rw [exec_handshake_lastOut byte hl hreq hconn hlast, happly]
    · rw [exec_handshake_lastOut byte hl hreq hconn hlast, applyBlock_reserved (s := s.withOut byte) hreserved,
        refuseByPort_eq _ _ rfl]
      rfl
  · exact ⟨rfl, rfl, rfl, rfl, rfl, rfl, fun code hlo hhi => parameterLength_ten hlo hhi,
      fun code hlo _ => parameterLength_sixteen hlo⟩

end Sys2Proof.Machine
end

section
/-! Request Sense and Inquire (R198, R199): the bytes of the sense record and of the identification. -/

namespace Sys2Proof.Machine

/-! ## The bytes of numbers -/

/-- The last byte of a number built on `n`. -/
theorem ofNat_mul_add (n : Nat) (b : Byte) : (BitVec.ofNat 8 (n * 256 + b.toNat) : Byte) = b := by
  apply BitVec.eq_of_toNat_eq
  have := b.isLt
  rw [BitVec.toNat_ofNat]
  omega

/-- The number that bytes spell is written with those bytes (00_scope, "Numbers and codes"). -/
theorem bytesOf_foldl (bs : List Byte) (n : Nat) :
    bytesOf bs.length (bs.foldl (fun n b => n * 256 + b.toNat) n) = bs := by
  induction bs using List.reverseRecOn with
  | nil => rfl
  | append_singleton bs b ih =>
    have hdiv (m : Nat) : (m * 256 + b.toNat) / 256 = m := by have := b.isLt; omega
    simp only [List.length_append, List.length_singleton, List.foldl_append, List.foldl_cons, List.foldl_nil, bytesOf,
      hdiv, ih, ofNat_mul_add]

theorem bytesOf_key (x : Serial) : bytesOf 6 x.key = [x.c0, x.c1, x.c2, x.c3, x.c4, x.c5] :=
  bytesOf_foldl [x.c0, x.c1, x.c2, x.c3, x.c4, x.c5] 0

/-! ## The sense record -/

/-- The record whose subject is a number: it stands in bytes 2 and 3 (R198). -/
theorem dataBytes_number (code kind n : Nat) : dataBytes ({ width := 1, value := code } :: numberFields kind n)
    = [BitVec.ofNat 8 code, BitVec.ofNat 8 kind, BitVec.ofNat 8 (n / 256), BitVec.ofNat 8 n, 0, 0, 0, 0] := rfl

/-- The record whose subject is a volume: its serial stands in bytes 2 to 7 (R198). -/
theorem dataBytes_serial (code : Nat) (x : Serial) :
    dataBytes ({ width := 1, value := code } :: Subject.fields (.serial x))
    = [BitVec.ofNat 8 code, 1, x.c0, x.c1, x.c2, x.c3, x.c4, x.c5] := by
  simp [dataBytes, Subject.fields, Field.bytes, bytesOf_key]
  rfl

theorem exec_requestSense {s : State} (hl : s.live) : exec .requestSense s = .next { s with
    lib := s.lib.begin
    port := { s.port with sense := none, last := some (.good (senseFields s.port.sense)) } } :=
  congrArg Host.Outcome.next (if_neg (ne_true_of_eq_false hl))

/-- Settles O17: the record's bytes by its subject, the codes one by one, and the fields of Inquire. -/
theorem senseAndInquire : Obligations.SenseAndInquire := by
  unfold Obligations.SenseAndInquire
  refine ⟨fun s hl => ⟨exec_requestSense hl, fun hclear => ?_, fun why about hsense => ?_⟩, by decide,
    fun s hl => ⟨exec_good_quiet _ _ s hl rfl _ _ _ rfl rfl, rfl, rfl⟩⟩
  · rw [hclear]
    rfl
  · rw [hsense]
    cases about
    case serial x => exact dataBytes_serial _ x
    all_goals exact dataBytes_number _ _ _

end Sys2Proof.Machine
end

section
/-! What a link reset leaves alone (R92, R145, R201): the header, start-up and the attention flags through all of it,
and the records of the library in what follows the end of the requests. -/

namespace Sys2Proof.Machine

/-! ## The relations -/

/-- `m` differs from `l` in the catalogue, the places, the drives, the rail, the prompts, the messages sent and the
notes at most: no request has changed. -/
def ReservedOnly (l m : Lib) : Prop :=
  m = { l with
    cat := m.cat, place := m.place, drives := m.drives, rail := m.rail, prompts := m.prompts, out := m.out
    notes := m.notes }

theorem ReservedOnly.refl (l : Lib) : ReservedOnly l l := rfl

theorem ReservedOnly.trans {l m n : Lib} (h : ReservedOnly l m) (k : ReservedOnly m n) : ReservedOnly l n := by
  unfold ReservedOnly at *; rw [k, h]

theorem ReservedOnly.foldl {α : Type} (f : Lib → α → Lib) (hf : ∀ l a, ReservedOnly l (f l a)) (xs : List α) (l : Lib) :
    ReservedOnly l (xs.foldl f l) := by
  induction xs generalizing l with
  | nil => exact .refl l
  | cons x xs ih => exact (hf l x).trans (ih _)

theorem PlaceOnly.toReserved {l m : Lib} (h : PlaceOnly l m) : ReservedOnly l m := by
  unfold PlaceOnly ReservedOnly at *; rw [h]

theorem RailOnly.toReserved {l m : Lib} (h : RailOnly l m) : ReservedOnly l m := by
  unfold RailOnly ReservedOnly at *; rw [h]

theorem ReservedOnly.reqs {l m : Lib} (h : ReservedOnly l m) : m.reqs = l.reqs := by unfold ReservedOnly at h; rw [h]

/-- `m` has the header, the attention flags and the start-up unit of `l`. -/
def HeaderStands (l m : Lib) : Prop :=
  m = { l with
    cat := m.cat, place := m.place, drives := m.drives, reqs := m.reqs, rail := m.rail, prompts := m.prompts
    acct := m.acct, out := m.out, notes := m.notes }

theorem HeaderStands.refl (l : Lib) : HeaderStands l l := rfl

theorem HeaderStands.trans {l m n : Lib} (h : HeaderStands l m) (k : HeaderStands m n) : HeaderStands l n := by
  unfold HeaderStands at *; rw [k, h]

theorem HeaderStands.foldl {α : Type} (f : Lib → α → Lib) (hf : ∀ l a, HeaderStands l (f l a)) (xs : List α) (l : Lib) :
    HeaderStands l (xs.foldl f l) := by
  induction xs generalizing l with
  | nil => exact .refl l
  | cons x xs ih => exact (hf l x).trans (ih _)

theorem ReservedOnly.header {l m : Lib} (h : ReservedOnly l m) : HeaderStands l m := by
  unfold ReservedOnly HeaderStands at *; rw [h]

theorem PlaceOnly.header {l m : Lib} (h : PlaceOnly l m) : HeaderStands l m := h.toReserved.header

theorem AdmitOnly.header {l m : Lib} (h : AdmitOnly l m) : HeaderStands l m := by
  unfold AdmitOnly HeaderStands at *; rw [h]

theorem HeaderStands.store {l m : Lib} (h : HeaderStands l m) : m.store = l.store := by unfold HeaderStands at h; rw [h]
theorem HeaderStands.att {l m : Lib} (h : HeaderStands l m) : m.att = l.att := by unfold HeaderStands at h; rw [h]
theorem HeaderStands.start {l m : Lib} (h : HeaderStands l m) : m.start = l.start := by unfold HeaderStands at h; rw [h]

namespace Lib

/-! ## A request freed -/

section
variable (g : Settings) (t : Nat) (l : Lib)

theorem releaseDrive_reservedOnly (d : Nat) : ReservedOnly l (l.releaseDrive d) := by rw [releaseDrive_only]; rfl

theorem leaveDrives_reservedOnly : ReservedOnly l (l.leaveDrives t) := by rw [leaveDrives_only]; rfl

theorem releaseReservations_reservedOnly (o : Order) : ReservedOnly l (l.releaseReservations g o t) := by
  unfold releaseReservations
  dsimp only
  refine .trans ?_ (clearMarks_only t _).toReserved
  have hfreed := (ReservedOnly.foldl _ (fun l d => releaseDrive_reservedOnly l d)
    ((l.servingDrives t).filter l.isReserved) l).trans (freePlaceSlot_only g t _).toReserved
  split
  · split
    · exact hfreed.trans (clearHome_only g _ _ _).toReserved
    · exact hfreed
  · exact hfreed

theorem dropStaged_reservedOnly : ReservedOnly l (l.dropStaged g t) := by
  unfold dropStaged
  split
  · rfl
  · split
    · exact (unstage_only _ l).toReserved.trans (releaseReservations_reservedOnly g t _ _)
    · rfl

theorem clearPrompts_only (test : Prompt → Bool) : PromptsOnly l (l.clearPrompts test) := rfl

/-- What a freed host request had reserved is given up, and its prompts go; its hold is still there (R92). -/
def resetReleased : Lib :=
  (((((l.emptyPlaceSlot g t).dropStaged g t).leaveDrives t).clearMarks t).dropWait t).clearPrompts (goesWith t)

/-- The hold of a freed host request goes with it (R11, R92). -/
def resetUnheld : Lib :=
  match (l.req? t).bind Request.serial? with
  | some s => (l.resetReleased g t).updVol s fun v => { v with holder := v.holder.filter (· ≠ t) }
  | none => l.resetReleased g t

theorem resetFree_eq : l.resetFree g t = ((l.resetUnheld g t).freeEntry t).wake := rfl

theorem resetReleased_reservedOnly : ReservedOnly l (l.resetReleased g t) :=
  ((((emptyPlaceSlot_only g t l).toReserved.trans (dropStaged_reservedOnly g t _)).trans
    (leaveDrives_reservedOnly t _)).trans (clearMarks_only t _).toReserved).trans
    ((dropWait_only t _).trans (clearPrompts_only _ _)).toRail.toReserved

theorem resetUnheld_reservedOnly : ReservedOnly l (l.resetUnheld g t) := by
  unfold resetUnheld
  split
  · exact (resetReleased_reservedOnly g t l).trans (updVol_only _ _ _).toPlace.toReserved
  · exact resetReleased_reservedOnly g t l

theorem resetFree_live : (l.resetFree g t).reqs.live = l.reqs.live.filter fun r => r.tag ≠ t := by
  rw [resetFree_eq]
  simp [freeEntry, (resetUnheld_reservedOnly g t l).reqs]

theorem resetFree_header : HeaderStands l (l.resetFree g t) := (resetUnheld_reservedOnly g t l).header.trans rfl

end

/-! ## A request converted -/

/-- A tag's place in another record passes to its successor (R12). -/
def successor (old new : Nat) (t : Option Nat) : Option Nat := if t = some old then some new else t

/-- An order's request passes to its successor. -/
def succeedOrder (old new : Nat) (o : Order) : Order := { o with serves := successor old new o.serves }

/-- The request as internal work under its new tag (R92). -/
def succeedReq (new : Nat) (r : Request) : Request :=
  { r with tag := new, origin := .internal, code := some (r.code.getD .cancelled) }

/-- The request table's part of it: the request that bears the tag passes to its successor. -/
def succeedIn (old new : Nat) (q : Request) : Request := if q.tag = old ∨ q.tag = new then succeedReq new q else q

/-- The records once a host request has passed to internal work, whatever its state (R92). -/
def succeeded (r : Request) (l : Lib) : Lib :=
  ((l.retag r.tag l.newTag).rotate l.newTag).updReq l.newTag fun q =>
    { q with origin := .internal, code := some (q.code.getD .cancelled) }

section
variable (r : Request) (l : Lib)

theorem succeeded_header : HeaderStands l (l.succeeded r) := rfl

theorem succeeded_live : (l.succeeded r).reqs.live = l.reqs.live.map (succeedIn r.tag l.newTag) := by
  change List.map _ (List.map _ l.reqs.live) = _
  rw [List.map_map]
  generalize l.newTag = new
  refine List.map_congr_left fun q _ => ?_
  unfold succeedIn
  by_cases hold : q.tag = r.tag
  · simp [hold, succeedReq]
  · by_cases hnew : q.tag = new
    · subst hnew
      simp [hold, succeedReq]
    · simp [hold, hnew]

theorem succeeded_drives : (l.succeeded r).drives
    = l.drives.map fun v => { v with serving := successor r.tag l.newTag v.serving } := rfl

theorem succeeded_vols : (l.succeeded r).cat.vols
    = l.cat.vols.map fun v => { v with holder := successor r.tag l.newTag v.holder } := rfl

theorem succeeded_acc (x : AccId) : (l.succeeded r).acc x = { l.acc x with
    current := (l.acc x).current.map (succeedOrder r.tag l.newTag)
    staged := (l.acc x).staged.map (succeedOrder r.tag l.newTag) } := by cases x <;> rfl

theorem reqUnmounted_header (g : Settings) (t : Nat) : HeaderStands l (l.reqUnmounted g t) := by
  unfold reqUnmounted accrue
  split
  · rfl
  · split
    · split <;> rfl
    · rfl

theorem setReqState_header (g : Settings) (t : Nat) (st : ReqState) : HeaderStands l (l.setReqState g t st) := by
  rw [setReqState_only]; rfl

/-- A converted request is marked cancel-pending, or goes to REWINDING with its drive, or goes on as it is (R92). -/
theorem convert_cases (g : Settings) {P : Lib → Prop} (hstands : P (l.succeeded r))
    (hpending : P ((l.succeeded r).updReq l.newTag fun q => { q with cancelPending := true }))
    (hrewinds : P ((l.succeeded r).reqRewinding g l.newTag))
    (hunloads : ∀ d, P (((l.succeeded r).reqRewinding g l.newTag).orderUnload g d)) : P (l.convert g r) := by
  unfold convert
  dsimp only
  split
  · exact hpending
  · exact hpending
  · split
    · exact hunloads _
    · exact hrewinds
  · split
    · exact hpending
    · exact hstands
  · exact hstands

theorem convert_header (g : Settings) : HeaderStands l (l.convert g r) := by
  have hrewinds : HeaderStands l ((l.succeeded r).reqRewinding g l.newTag) :=
    (succeeded_header r l).trans ((reqUnmounted_header _ g _).trans (setReqState_header _ g _ _))
  refine convert_cases r l g (succeeded_header r l) rfl hrewinds fun d => ?_
  rw [orderUnload_eq]
  exact hrewinds.trans rfl

end

/-! ## The host's requests, one after another -/

/-- The requests of the host ended, with the reels that they hand over (R92). -/
def hostsReset (g : Settings) (l : Lib) : List (Nat × Serial) × Lib :=
  l.hostTags.foldl (fun x t => resetRequest g x t) ([], l)

theorem resetRequest_header (g : Settings) (x : List (Nat × Serial) × Lib) (t : Nat) :
    HeaderStands x.2 (resetRequest g x t).2 := by
  unfold resetRequest
  split
  · split
    · exact resetFree_header g t x.2
    · exact convert_header _ x.2 g
  · rfl

theorem hostsReset_header (g : Settings) (l : Lib) : HeaderStands l (l.hostsReset g).2 := by
  unfold hostsReset
  generalize l.hostTags = ts
  suffices h : ∀ x : List (Nat × Serial) × Lib, HeaderStands x.2 (ts.foldl (fun x t => resetRequest g x t) x).2 from
    h ([], l)
  induction ts with
  | nil => exact fun x => .refl x.2
  | cons t ts ih => exact fun x => (resetRequest_header g x t).trans (ih _)

/-! ## What follows the end of the requests -/

/-- The prompts that a link reset withdraws once the scratch list is up to date: every host message, and SCRATCH-LOW
where the condition of R9 has cleared (R24, R145). -/
def messagesCleared (g : Settings) (l : Lib) : Lib :=
  (l.syncAllScratch g).clearPrompts fun p =>
    p.kind = .hostMessage || (p.kind = .scratchLow && !(l.syncAllScratch g).cat.low)

/-- The slots so freed offered to the waiting list (R140). -/
def offeredAfter (g : Settings) (l : Lib) : Lib := (l.messagesCleared g).offerQuietly g Config.promptSlots

/-- The scratch list, the prompts and the panel brought up to date once the host's requests have ended, before the
reels are handed over (R24, R40, R130, R140, R145). -/
def tidied (g : Settings) (l found : Lib) : Lib :=
  ((l.offeredAfter g).presentAfterReset ((l.messagesCleared g).numbered.map fun y => y.2.posting)
    (((l.offeredAfter g).reqs.live.map Request.tag).filter fun t =>
      !(found.clearAttention.reqs.live.map Request.tag).contains t)).removeAfterReset g found

theorem linkReset_eq (g : Settings) (found : Lib) : found.linkReset g
    = (found.clearAttention.hostsReset g).1.foldl (fun l y => l.handOver g y.1 y.2)
        ((found.clearAttention.hostsReset g).2.tidied g found) := by
  unfold linkReset tidied offeredAfter messagesCleared hostsReset
  dsimp only

/-- Bringing the scratch list up to date changes the list, the condition of R9 and the notes. -/
theorem syncAllScratch_only (g : Settings) (l : Lib) : l.syncAllScratch g = { l with
    cat := { l.cat with scratch := (l.syncAllScratch g).cat.scratch, low := (l.syncAllScratch g).cat.low }
    notes := (l.syncAllScratch g).notes } := by
  have hplaced : l.placeAllOnScratch = { l with cat := { l.cat with scratch := l.placeAllOnScratch.cat.scratch } } := by
    unfold placeAllOnScratch
    generalize l.cat.vols.map Volume.serial = ss
    induction ss generalizing l with
    | nil => rfl
    | cons s ss ih => rw [List.foldl_cons, ih]; rfl
  unfold syncAllScratch
  dsimp only
  split
  · rw [hplaced]
  · unfold judgeLow
    rw [hplaced]
    split
    · split <;> rfl
    · rfl

section
variable (g : Settings) (l : Lib)

theorem offerQuietly_only (n : Nat) : PromptsOnly l (offerQuietly g n l) := by
  induction n generalizing l with
  | zero => exact .refl l
  | succ n ih =>
    unfold offerQuietly
    split
    · exact ((dropWait_only _ l).trans (fillSlot_only g _ _ _)).trans (ih _)
    · exact .refl l

theorem presentAfterReset_only (was tags : List Nat) : PromptsOnly l (l.presentAfterReset was tags) := by
  unfold presentAfterReset
  split
  · split
    · exact .refl l
    · exact presentFirst_only l
  · split
    · exact presentFirst_only l
    · split
      · exact display_only _ _ l
      · split
        · exact refresh_only _ _ l
        · exact .refl l

theorem removeAfterReset_only (was : Lib) : PromptsOnly l (l.removeAfterReset g was) := by
  unfold removeAfterReset
  split
  · exact .refl l
  · exact updateRemove_only g l

theorem messagesCleared_only : PromptsOnly (l.syncAllScratch g) (l.messagesCleared g) := clearPrompts_only _ _

theorem offeredAfter_only : PromptsOnly (l.messagesCleared g) (l.offeredAfter g) := offerQuietly_only g _ _

/-- All but the scratch list, the prompts and the messages stands once the requests have ended. -/
theorem tidied_promptsOnly (found : Lib) : PromptsOnly (l.syncAllScratch g) (l.tidied g found) := by
  unfold tidied
  exact (((messagesCleared_only g l).trans (offeredAfter_only g l)).trans (presentAfterReset_only _ _ _)).trans
    (removeAfterReset_only g _ found)

theorem tidied_only (found : Lib) : CatOnly l (l.tidied g found) := by
  refine .trans ?_ (tidied_promptsOnly g l found).toCat
  rw [syncAllScratch_only]
  rfl

theorem tidied_vols (found : Lib) : (l.tidied g found).cat.vols = l.cat.vols := by
  rw [(tidied_promptsOnly g l found).cat, syncAllScratch_only]

/-! ## What has been sent -/

theorem offerQuietly_out (n : Nat) : (offerQuietly g n l).out = l.out := by
  induction n generalizing l with
  | zero => rfl
  | succ n ih =>
    unfold offerQuietly
    split
    · rw [ih]; rfl
    · rfl

theorem refresh_sent (n : Nat) (force : Bool) : l.out <+: (l.refresh n force).out := by
  unfold refresh
  split
  · split
    · exact display_sent _ _ l
    · exact List.prefix_refl _
  · exact List.prefix_refl _

theorem presentAfterReset_sent (was tags : List Nat) : l.out <+: (l.presentAfterReset was tags).out := by
  unfold presentAfterReset
  split
  · split
    · exact List.prefix_refl _
    · exact presentFirst_sent l
  · split
    · exact presentFirst_sent l
    · split
      · exact display_sent _ _ l
      · split
        · exact refresh_sent l _ _
        · exact List.prefix_refl _

theorem removeAfterReset_sent (was : Lib) : l.out <+: (l.removeAfterReset g was).out := by
  unfold removeAfterReset updateRemove
  split
  · exact List.prefix_refl _
  · split
    · exact postNotice_sent g _ _ _ l
    · exact withdrawWhere_sent g _ l

theorem tidied_sent (found : Lib) : l.out <+: (l.tidied g found).out := by
  have hscratch : (l.syncAllScratch g).out = l.out := by rw [syncAllScratch_only]
  have hoffered : (l.offeredAfter g).out = l.out := (offerQuietly_out g _ _).trans hscratch
  unfold tidied
  rw [← hoffered]
  exact (presentAfterReset_sent (l.offeredAfter g) _ _).trans (removeAfterReset_sent g _ found)

/-! ## The reels handed over -/

variable (k : Nat) (x : Serial)

theorem createInternal_header (kind : Kind) (cargo : Cargo) (priority : Nat) (fill : Request → Request) :
    HeaderStands l (l.createInternal g kind cargo priority fill).2 :=
  (admitReq_only g _ .internal kind cargo priority fill l).header.trans rfl

theorem startImport_header (label : Option Serial) (c : Option Nat) :
    HeaderStands l (l.startImport g k label x c) := by
  unfold startImport
  dsimp only
  refine .trans ?_ (enterQueued_only g _ _).header
  refine .trans ?_ (setSlot_only g k _ _).header
  refine .trans ?_ (createInternal_header g _ _ _ _ _)
  have hmoved := (moveVol_only g x (.station k) l).toPlace.header
  split
  · exact hmoved.trans (reserveHome_only g x _ _).header
  · exact hmoved

theorem handOver_header : HeaderStands l (l.handOver g k x) := by
  have hmoved := (moveVol_only g x .shelf l).toPlace
  unfold handOver
  split
  · exact (hmoved.trans (rejectSlot_only g k _ _ _)).header
  · split
    · exact startImport_header g l k x _ _
    · exact (hmoved.trans (setSlot_only g k _ _)).header

theorem linkReset_header (found : Lib) : HeaderStands found.clearAttention (found.linkReset g) := by
  rw [linkReset_eq]
  have htidied := (hostsReset_header g found.clearAttention).trans (tidied_only g _ found).toPlace.header
  exact htidied.trans (HeaderStands.foldl (fun (l : Lib) (y : Nat × Serial) => l.handOver g y.1 y.2)
    (fun l y => handOver_header g l y.1 y.2) _ _)

end

end Lib

end Sys2Proof.Machine
end

section
/-! The host messages at a link reset (R145): no operation of it posts one while no request prompt waits for a slot, and
it withdraws every one that stands. -/

namespace Sys2Proof.Machine

namespace Lib

/-- No slot holds a host message, POSTED or ANSWERED (R145). -/
def NoMessage (l : Lib) : Prop := ∀ p, some p ∈ l.prompts.slots → p.kind ≠ .hostMessage

/-- With no request prompt waiting for a slot in `l`, none waits in `m` either, and no slot has come to hold a host
message. -/
def NoMessageAdded (l m : Lib) : Prop :=
  l.prompts.waits = [] → m.prompts.waits = [] ∧ (l.NoMessage → m.NoMessage)

theorem NoMessageAdded.of_prompts {l m : Lib} (h : m.prompts = l.prompts) : NoMessageAdded l m := by
  intro hwaits
  unfold NoMessage
  rw [h]
  exact ⟨hwaits, id⟩

theorem NoMessageAdded.refl (l : Lib) : NoMessageAdded l l := .of_prompts rfl

theorem NoMessageAdded.trans {l m n : Lib} (h : NoMessageAdded l m) (k : NoMessageAdded m n) : NoMessageAdded l n := by
  intro hwaits
  obtain ⟨hm, hlm⟩ := h hwaits
  obtain ⟨hn, hmn⟩ := k hm
  exact ⟨hn, fun hl => hmn (hlm hl)⟩

theorem NoMessageAdded.foldl {α : Type} (f : Lib → α → Lib) (hf : ∀ l a, NoMessageAdded l (f l a)) (xs : List α)
    (l : Lib) : NoMessageAdded l (xs.foldl f l) := by
  induction xs generalizing l with
  | nil => exact .refl l
  | cons x xs ih => exact (hf l x).trans (ih _)

/-! ## One slot -/

theorem NoMessage.set {l m : Lib} (h : l.NoMessage) {k : Nat} {q : Option Prompt}
    (hm : m.prompts.slots = l.prompts.slots.set k q) (hq : ∀ p, q = some p → p.kind ≠ .hostMessage) : m.NoMessage := by
  intro p hp
  rw [hm] at hp
  obtain hold | hnew := List.mem_or_eq_of_mem_set hp
  · exact h p hold
  · exact hq p hnew.symm

theorem NoMessage.display {l : Lib} (h : l.NoMessage) {x : Nat × Prompt} (hx : x.2.kind ≠ .hostMessage) (force : Bool) :
    (l.display x force).NoMessage :=
  h.set (m := l.display x force) (k := x.1) rfl (by rintro p ⟨⟩; exact hx)

theorem NoMessage.of_numbered {l : Lib} (h : l.NoMessage) {x : Nat × Prompt} (hx : x ∈ l.numbered) :
    x.2.kind ≠ .hostMessage := by
  obtain ⟨-, hslot⟩ := mem_numbered.1 hx
  refine h x.2 ?_
  rw [← hslot, List.getD_eq_getElem _ _ (lt_of_promptSlot hslot)]
  exact List.getElem_mem _

theorem NoMessage.of_presentationOrder {l : Lib} (h : l.NoMessage) {x : Nat × Prompt}
    (hx : x ∈ l.presentationOrder) : x.2.kind ≠ .hostMessage :=
  h.of_numbered (mem_presentationOrder.1 hx).1

/-! ## The prompt operations -/

section
variable (g : Settings) (l : Lib)

theorem presentFirst_noMessageAdded : NoMessageAdded l l.presentFirst := by
  unfold presentFirst
  split
  · next x xs horder =>
    exact fun hwaits => ⟨hwaits, fun h => h.display (h.of_presentationOrder (horder ▸ List.mem_cons_self)) false⟩
  · exact fun hwaits => ⟨hwaits, id⟩

theorem refresh_noMessageAdded (n : Nat) (force : Bool) : NoMessageAdded l (l.refresh n force) := by
  unfold refresh
  split
  · split
    · next x hx => exact fun hwaits => ⟨hwaits, fun h => h.display (h.of_numbered (List.mem_of_find?_eq_some hx)) force⟩
    · exact .refl l
  · exact .refl l

theorem emptySlot_noMessageAdded (k : Nat) : NoMessageAdded l (l.emptySlot k) := by
  have hset : NoMessageAdded l (l.setPrompt k none) := fun hwaits => ⟨hwaits, fun h =>
    h.set (m := l.setPrompt k none) rfl (by rintro p ⟨⟩)⟩
  unfold emptySlot
  split
  · exact .refl l
  · dsimp only
    split
    · exact hset.trans (presentFirst_noMessageAdded _)
    · exact hset

theorem offerSlot_noMessageAdded : NoMessageAdded l (l.offerSlot g) := by
  intro hwaits
  rw [offerSlot_of_no_waits g hwaits]
  exact ⟨hwaits, id⟩

theorem withdrawSlot_noMessageAdded (k : Nat) : NoMessageAdded l (l.withdrawSlot g k) := by
  unfold withdrawSlot
  split
  · exact .refl l
  · exact (emptySlot_noMessageAdded l k).trans (offerSlot_noMessageAdded g _)

theorem withdrawWhere_noMessageAdded (test : Prompt → Bool) : NoMessageAdded l (l.withdrawWhere g test) :=
  .foldl (fun l (x : Nat × Prompt) => l.withdrawSlot g x.1) (fun l x => withdrawSlot_noMessageAdded g l x.1) _ l

theorem withdrawNotice_noMessageAdded (kind : PromptKind) (test : PromptSubject → Bool) :
    NoMessageAdded l (l.withdrawNotice g kind test) := withdrawWhere_noMessageAdded g l _

theorem postAt_noMessageAdded (k : Nat) {d : Draft} (hd : d.kind ≠ .hostMessage) :
    NoMessageAdded l (l.postAt g k d) := by
  have hfill : NoMessageAdded l (l.fillSlot g k d) := fun hwaits =>
    ⟨hwaits, fun h => h.set (k := k) rfl (by rintro p ⟨⟩; exact hd)⟩
  have hshown : NoMessageAdded l ((l.fillSlot g k d).display (k, newPrompt g d l.posting) false) :=
    hfill.trans fun hwaits => ⟨hwaits, fun h => h.display (x := (k, newPrompt g d l.posting)) hd false⟩
  unfold postAt
  dsimp only
  split
  · exact hshown
  · split
    · exact hshown
    · exact hfill

theorem postNotice_noMessageAdded {kind : PromptKind} (hkind : kind ≠ .hostMessage) (x : PromptSubject) (n : Nat) :
    NoMessageAdded l (l.postNotice g kind x n) := by
  unfold postNotice
  split
  · exact .refl l
  · split
    · exact postAt_noMessageAdded g l _ hkind
    · split
      · exact (emptySlot_noMessageAdded l _).trans (postAt_noMessageAdded g _ _ hkind)
      · exact .refl l

theorem dropWait_noMessageAdded (t : Nat) : NoMessageAdded l (l.dropWait t) := fun hwaits =>
  ⟨show l.prompts.waits.filter _ = [] by rw [hwaits]; rfl, id⟩

theorem mem_clearPrompts {test : Prompt → Bool} {p : Prompt} :
    some p ∈ (l.clearPrompts test).prompts.slots ↔ some p ∈ l.prompts.slots ∧ test p = false := by
  change some p ∈ l.prompts.slots.map _ ↔ _
  rw [List.mem_map]
  constructor
  · rintro ⟨q, hq, hp⟩
    obtain ⟨rfl, htest⟩ := Option.filter_eq_some_iff.1 hp
    exact ⟨hq, by simpa using htest⟩
  · rintro ⟨hq, htest⟩
    exact ⟨some p, hq, Option.filter_eq_some_iff.2 ⟨rfl, by simpa using htest⟩⟩

theorem clearPrompts_noMessageAdded (test : Prompt → Bool) : NoMessageAdded l (l.clearPrompts test) := fun hwaits =>
  ⟨hwaits, fun h p hp => h p ((mem_clearPrompts l).1 hp).1⟩

/-! ## The catalogue and the places -/

theorem judgeLow_prompts : (l.judgeLow g).prompts = l.prompts := by
  unfold judgeLow
  split
  · split <;> rfl
  · rfl

theorem changeVol_noMessageAdded (s : Serial) (f : Volume → Volume) : NoMessageAdded l (l.changeVol g s f) := by
  have hjudged (m : Lib) : NoMessageAdded m (m.evalLow g) := by
    have hlow : NoMessageAdded m (m.judgeLow g) := .of_prompts (judgeLow_prompts g m)
    unfold evalLow
    dsimp only
    split
    · exact hlow
    · exact hlow.trans (withdrawNotice_noMessageAdded g _ _ _)
  have hsync : NoMessageAdded l ((l.updVol s f).syncScratch g s) := by
    have hplaced : NoMessageAdded l ((l.updVol s f).placeOnScratch s) := .of_prompts rfl
    unfold syncScratch
    dsimp only
    split
    · exact hplaced
    · exact hplaced.trans (hjudged _)
  unfold changeVol
  dsimp only
  split
  · exact hsync.trans (withdrawNotice_noMessageAdded g _ _ _)
  · exact hsync

theorem setCell_noMessageAdded (n : Nat) (c : Cell) : NoMessageAdded l (l.setCell n c) :=
  .of_prompts (setCell_prompts n c l)

theorem clearHome_noMessageAdded (s : Serial) (c : Cell) : NoMessageAdded l (l.clearHome g s c) := by
  unfold clearHome
  split
  · exact (setCell_noMessageAdded l _ c).trans (changeVol_noMessageAdded g _ _ _)
  · exact .refl l

theorem clearMarks_noMessageAdded (t : Nat) : NoMessageAdded l (l.clearMarks t) :=
  .foldl _ (fun l n => by
    split
    · exact setCell_noMessageAdded l n _
    · exact .refl l) _ l

theorem updateRemove_noMessageAdded : NoMessageAdded l (l.updateRemove g) := by
  unfold updateRemove
  split
  · exact postNotice_noMessageAdded g l (kind := .stationRemove) (by decide) _ _
  · exact withdrawNotice_noMessageAdded g l _ _

theorem changeSlot_noMessageAdded (k : Nat) (x : Slot) : NoMessageAdded l (l.changeSlot g k x) := by
  unfold changeSlot
  dsimp only
  split
  · refine .trans ?_ ((withdrawNotice_noMessageAdded g _ _ _).trans (withdrawNotice_noMessageAdded g _ _ _))
    exact .of_prompts (by split <;> rfl)
  · exact .of_prompts (by split <;> rfl)

theorem setSlot_noMessageAdded (k : Nat) (x : Slot) : NoMessageAdded l (l.setSlot g k x) :=
  (changeSlot_noMessageAdded g l k x).trans (updateRemove_noMessageAdded g _)

theorem rejectSlot_noMessageAdded (k : Nat) (label : Option Serial) (why : Reject) :
    NoMessageAdded l (l.rejectSlot g k label why) :=
  ((changeSlot_noMessageAdded g l k _).trans (postNotice_noMessageAdded g _ (by split <;> nofun) _ _)).trans
    (updateRemove_noMessageAdded g _)

theorem freePlaceSlot_noMessageAdded (t : Nat) : NoMessageAdded l (l.freePlaceSlot g t) := by
  unfold freePlaceSlot
  split
  · exact setSlot_noMessageAdded g l _ _
  · exact .refl l

theorem emptyPlaceSlot_noMessageAdded (t : Nat) : NoMessageAdded l (l.emptyPlaceSlot g t) := by
  unfold emptyPlaceSlot
  split
  · exact changeSlot_noMessageAdded g l _ _
  · exact .refl l

/-! ## The end of a request of the host -/

variable (t : Nat)

theorem releaseDrive_prompts (d : Nat) : (l.releaseDrive d).prompts = l.prompts := by rw [releaseDrive_only]

theorem leaveDrives_prompts : (l.leaveDrives t).prompts = l.prompts := by rw [leaveDrives_only]

theorem updateLock_prompts : l.updateLock.prompts = l.prompts := by
  unfold updateLock
  dsimp only
  split
  · rfl
  · split <;> rfl

theorem unstage_prompts (x : AccId) : (l.unstage x).prompts = l.prompts :=
  (updateLock_prompts _).trans (by cases x <;> rfl)

theorem releaseReservations_noMessageAdded (o : Order) : NoMessageAdded l (l.releaseReservations g o t) := by
  unfold releaseReservations
  dsimp only
  refine .trans ?_ (clearMarks_noMessageAdded _ t)
  have hfreed := (NoMessageAdded.foldl _ (fun l d => .of_prompts (releaseDrive_prompts l d))
    ((l.servingDrives t).filter l.isReserved) l).trans (freePlaceSlot_noMessageAdded g _ t)
  split
  · split
    · exact hfreed.trans (clearHome_noMessageAdded g _ _ _)
    · exact hfreed
  · exact hfreed

theorem dropStaged_noMessageAdded : NoMessageAdded l (l.dropStaged g t) := by
  unfold dropStaged
  split
  · exact .refl l
  · split
    · exact (NoMessageAdded.of_prompts (unstage_prompts l _)).trans (releaseReservations_noMessageAdded g _ t _)
    · exact .refl l

theorem resetFree_noMessageAdded : NoMessageAdded l (l.resetFree g t) := by
  have hreleased : NoMessageAdded l (l.resetReleased g t) :=
    ((((emptyPlaceSlot_noMessageAdded g l t).trans (dropStaged_noMessageAdded g _ t)).trans
      (.of_prompts (leaveDrives_prompts _ t))).trans (clearMarks_noMessageAdded _ t)).trans
      ((dropWait_noMessageAdded _ t).trans (clearPrompts_noMessageAdded _ _))
  have hunheld : NoMessageAdded l (l.resetUnheld g t) := by
    unfold resetUnheld
    split
    · exact hreleased.trans (.of_prompts rfl)
    · exact hreleased
  rw [resetFree_eq]
  exact hunheld.trans (.of_prompts rfl)

theorem retagPrompts_noMessageAdded (old new : Nat) : NoMessageAdded l (l.retagPrompts old new) := by
  refine fun hwaits => ⟨show l.prompts.waits.map _ = [] by rw [hwaits]; rfl, fun h p hp => ?_⟩
  obtain ⟨q, hq, hp⟩ := List.mem_map.1 (show some p ∈ l.prompts.slots.map _ from hp)
  obtain ⟨r, rfl, rfl⟩ := Option.map_eq_some_iff.1 hp
  dsimp only
  split <;> exact h r hq

theorem succeeded_noMessageAdded (r : Request) : NoMessageAdded l (l.succeeded r) :=
  retagPrompts_noMessageAdded l r.tag l.newTag

theorem wake_noMessageAdded : NoMessageAdded l l.wake := .of_prompts rfl

theorem setReqState_noMessageAdded (st : ReqState) : NoMessageAdded l (l.setReqState g t st) := by
  unfold setReqState
  split
  · exact .refl l
  · have hset (f : Request → Request) : NoMessageAdded l (l.updReq t f) := .of_prompts rfl
    have hwithdrawn (f : Request → Request) (test : PromptSubject → Bool) :
        NoMessageAdded l ((l.updReq t f).withdrawNotice g .queueStall test) :=
      (hset f).trans (withdrawNotice_noMessageAdded g _ _ _)
    dsimp only
    split <;> split
    · exact (hwithdrawn _ _).trans (wake_noMessageAdded _)
    · exact (hset _).trans (wake_noMessageAdded _)
    · exact hwithdrawn _ _
    · exact hset _

theorem reqUnmounted_prompts : (l.reqUnmounted g t).prompts = l.prompts := by
  unfold reqUnmounted
  split
  · rfl
  · split
    · rw [accrue_prompts]; rfl
    · rfl

theorem convert_noMessageAdded (r : Request) : NoMessageAdded l (l.convert g r) := by
  have hsucceeded := succeeded_noMessageAdded l r
  have hrewinds : NoMessageAdded l ((l.succeeded r).reqRewinding g l.newTag) :=
    hsucceeded.trans
      ((NoMessageAdded.of_prompts (reqUnmounted_prompts g _ _)).trans (setReqState_noMessageAdded g _ _ _))
  refine convert_cases r l g hsucceeded (hsucceeded.trans (.of_prompts rfl)) hrewinds fun d => ?_
  rw [orderUnload_eq]
  exact hrewinds.trans (.of_prompts rfl)

theorem resetRequest_noMessageAdded (x : List (Nat × Serial) × Lib) : NoMessageAdded x.2 (resetRequest g x t).2 := by
  unfold resetRequest
  split
  · split
    · exact resetFree_noMessageAdded g x.2 t
    · exact convert_noMessageAdded g x.2 _
  · exact .refl _

theorem hostsReset_noMessageAdded : NoMessageAdded l (l.hostsReset g).2 := by
  unfold hostsReset
  generalize l.hostTags = ts
  suffices h : ∀ x : List (Nat × Serial) × Lib, NoMessageAdded x.2 (ts.foldl (fun x t => resetRequest g x t) x).2 from
    h ([], l)
  induction ts with
  | nil => exact fun x => .refl x.2
  | cons t ts ih => exact fun x => (resetRequest_noMessageAdded g t x).trans (ih _)

/-! ## What follows -/

/-- Every host message is withdrawn (R145). -/
theorem messagesCleared_noMessage : (l.messagesCleared g).NoMessage := by
  intro p hp
  have htest := ((mem_clearPrompts _).1 hp).2
  simp only [Bool.or_eq_false_iff, decide_eq_false_iff_not] at htest
  exact htest.1

theorem messagesCleared_waits : (l.messagesCleared g).prompts.waits = l.prompts.waits := by
  change (l.syncAllScratch g).prompts.waits = _
  rw [syncAllScratch_only]

theorem offerQuietly_of_no_waits (n : Nat) (h : l.prompts.waits = []) : offerQuietly g n l = l := by
  cases n with
  | zero => rfl
  | succ n => unfold offerQuietly; rw [h]; cases l.freePromptSlot <;> rfl

theorem mem_order_of_moreUrgent? {was : List Nat} {shown : Prompt} {x : Nat × Prompt}
    (h : l.moreUrgent? was shown = some x) : x ∈ l.presentationOrder := by
  unfold moreUrgent? at h
  split at h
  · next y hy =>
    split at h
    · cases h
      exact List.mem_of_find?_eq_some hy
    · cases h
  · cases h

theorem presentAfterReset_noMessageAdded (was tags : List Nat) : NoMessageAdded l (l.presentAfterReset was tags) := by
  unfold presentAfterReset
  split
  · split
    · exact .refl l
    · exact presentFirst_noMessageAdded l
  · split
    · exact presentFirst_noMessageAdded l
    · split
      · next x hx =>
        refine fun hwaits => ⟨hwaits, fun h => h.display (h.of_presentationOrder ?_) false⟩
        exact mem_order_of_moreUrgent? l hx
      · split
        · exact refresh_noMessageAdded l _ _
        · exact .refl l

theorem tidied_noMessage (found : Lib) (hwaits : l.prompts.waits = []) :
    (l.tidied g found).prompts.waits = [] ∧ (l.tidied g found).NoMessage := by
  have hclear : (l.messagesCleared g).prompts.waits = [] := (messagesCleared_waits g l).trans hwaits
  have hoffered : l.offeredAfter g = l.messagesCleared g := offerQuietly_of_no_waits g _ _ hclear
  have hremoved (m : Lib) : NoMessageAdded m (m.removeAfterReset g found) := by
    unfold removeAfterReset
    split
    · exact .refl m
    · exact updateRemove_noMessageAdded g m
  unfold tidied
  rw [hoffered]
  obtain ⟨hnone, hkeeps⟩ := ((presentAfterReset_noMessageAdded (l.messagesCleared g) _ _).trans (hremoved _)) hclear
  exact ⟨hnone, hkeeps (messagesCleared_noMessage g l)⟩

theorem admitReq_noMessageAdded (o : Origin) (kind : Kind) (cargo : Cargo) (priority : Nat) (fill : Request → Request) :
    NoMessageAdded l (l.admitReq g t o kind cargo priority fill) := by
  unfold admitReq takeHold
  cases cargo with
  | volume s =>
    refine .trans ?_ (changeVol_noMessageAdded g _ s _)
    exact .of_prompts rfl
  | none => exact .of_prompts rfl
  | unknown _ => exact .of_prompts rfl

theorem rotate_noMessageAdded : NoMessageAdded l (l.rotate t) := .of_prompts rfl

theorem takeQueue_noMessageAdded : NoMessageAdded l (l.takeQueue t) := .of_prompts rfl

theorem startImport_noMessageAdded (k : Nat) (label : Option Serial) (s : Serial) (c : Option Nat) :
    NoMessageAdded l (l.startImport g k label s c) := by
  unfold startImport enterQueued createInternal
  dsimp only
  refine .trans ?_ ((takeQueue_noMessageAdded _ _).trans (setReqState_noMessageAdded g _ _ _))
  refine .trans ?_ (setSlot_noMessageAdded g _ _ _)
  refine .trans ?_ ((admitReq_noMessageAdded g _ _ _ _ _ _ _).trans (rotate_noMessageAdded _ _))
  have hmoved : NoMessageAdded l (l.moveVol g s (.station k)) := changeVol_noMessageAdded g l s _
  split
  · exact hmoved.trans ((setCell_noMessageAdded _ _ _).trans (changeVol_noMessageAdded g _ _ _))
  · exact hmoved

theorem handOver_noMessageAdded (k : Nat) (s : Serial) : NoMessageAdded l (l.handOver g k s) := by
  have hmoved : NoMessageAdded l (l.moveVol g s .shelf) := changeVol_noMessageAdded g l s _
  unfold handOver
  split
  · exact hmoved.trans (rejectSlot_noMessageAdded g _ _ _ _)
  · split
    · exact startImport_noMessageAdded g l k _ s _
    · exact hmoved.trans (setSlot_noMessageAdded g _ _ _)

/-- With no request prompt waiting for a slot, no host message is left by a link reset (R145). -/
theorem linkReset_noMessage (hwaits : l.prompts.waits = []) : (l.linkReset g).NoMessage := by
  obtain ⟨hreset, -⟩ := hostsReset_noMessageAdded g l.clearAttention hwaits
  obtain ⟨htidied, hnone⟩ := tidied_noMessage g (l.clearAttention.hostsReset g).2 l hreset
  rw [linkReset_eq]
  exact (NoMessageAdded.foldl (fun (l : Lib) (y : Nat × Serial) => l.handOver g y.1 y.2)
    (fun l y => handOver_noMessageAdded g l y.1 y.2) _ _ htidied).2 hnone

end

end Lib

end Sys2Proof.Machine
end

section
/-! No request of the host is left by a link reset (R92): one is freed, any other goes on as internal work. -/

namespace Sys2Proof.Machine

namespace Lib

/-- The tag and the origin of each live request. -/
def owners (l : Lib) : List (Nat × Origin) := l.reqs.live.map fun r => (r.tag, r.origin)

theorem owners_of_reqs {l m : Lib} (h : m.reqs = l.reqs) : m.owners = l.owners := by unfold owners; rw [h]

theorem owners_updReq (t : Nat) {f : Request → Request} (l : Lib)
    (hf : ∀ r, ((f r).tag, (f r).origin) = (r.tag, r.origin)) :
    (l.updReq t f).owners = l.owners := by
  unfold owners
  rw [updReq_reqs, List.map_map]
  refine List.map_congr_left fun r _ => ?_
  dsimp only [Function.comp_apply]
  split
  · exact hf r
  · rfl

section
variable (g : Settings) (t : Nat) (l : Lib)

theorem owners_setReqState (st : ReqState) : (l.setReqState g t st).owners = l.owners := by
  cases h : l.req? t with
  | none => unfold setReqState; rw [h]
  | some r => rw [owners_of_reqs (setReqState_live g t st l r h), owners_updReq t l (by intro q; rfl)]

theorem owners_reqUnmounted : (l.reqUnmounted g t).owners = l.owners := by
  unfold reqUnmounted
  split
  · rfl
  · split
    · rw [owners_of_reqs (accrue_reqs _ _ _), owners_updReq t l (by intro q; rfl)]
    · rfl

/-! ## One request of the host -/

/-- What stays the host's when a request has passed to internal work was the host's, under another tag (R92). -/
theorem mem_owners_succeeded {r : Request} {n : Nat} (h : (n, Origin.link) ∈ (l.succeeded r).owners) :
    (n, Origin.link) ∈ l.owners ∧ n ≠ r.tag := by
  unfold owners at h ⊢
  rw [succeeded_live, List.map_map] at h
  obtain ⟨q, hq, heq⟩ := List.mem_map.1 h
  simp only [Function.comp_apply, succeedIn] at heq
  split at heq
  · cases (Prod.mk.inj heq).2
  · next hother =>
    obtain ⟨rfl, -⟩ := Prod.mk.inj heq
    exact ⟨List.mem_map.2 ⟨q, hq, heq⟩, fun h => hother (.inl h)⟩

theorem mem_owners_convert {r : Request} {n : Nat} (h : (n, Origin.link) ∈ (l.convert g r).owners) :
    (n, Origin.link) ∈ l.owners ∧ n ≠ r.tag := by
  have hsame : (l.convert g r).owners = (l.succeeded r).owners := by
    have hrewinds : ((l.succeeded r).reqRewinding g l.newTag).owners = (l.succeeded r).owners := by
      unfold reqRewinding
      rw [owners_setReqState, owners_reqUnmounted]
    refine convert_cases (P := fun m => m.owners = (l.succeeded r).owners) r l g rfl
      (owners_updReq _ _ (by intro q; rfl)) hrewinds fun d => ?_
    rw [orderUnload_eq]
    exact hrewinds
  exact mem_owners_succeeded l (hsame ▸ h)

/-- After its turn no request of the host bears the tag, and no request has become the host's (R92). -/
theorem mem_owners_resetRequest (x : List (Nat × Serial) × Lib) {n : Nat}
    (h : (n, Origin.link) ∈ (resetRequest g x t).2.owners) : (n, Origin.link) ∈ x.2.owners ∧ n ≠ t := by
  unfold resetRequest at h
  split at h
  · next r hr =>
    split at h
    · unfold owners at h ⊢
      rw [resetFree_live] at h
      obtain ⟨q, hq, heq⟩ := List.mem_map.1 h
      obtain ⟨hlive, htag⟩ := List.mem_filter.1 hq
      obtain ⟨rfl, -⟩ := Prod.mk.inj heq
      exact ⟨List.mem_map.2 ⟨q, hlive, heq⟩, by simpa using htag⟩
    · obtain ⟨hmem, hne⟩ := mem_owners_convert g x.2 h
      exact ⟨hmem, tag_of_req? hr ▸ hne⟩
  · next hnone =>
    refine ⟨h, fun hn => ?_⟩
    obtain ⟨q, hq, heq⟩ := List.mem_map.1 h
    have := List.find?_eq_none.1 hnone q hq
    exact this (by simpa [hn] using congrArg Prod.fst heq)

/-! ## All of them -/

theorem mem_hostTags {n : Nat} (h : (n, Origin.link) ∈ l.owners) : n ∈ l.hostTags := by
  obtain ⟨q, hq, heq⟩ := List.mem_map.1 h
  obtain ⟨rfl, horigin⟩ := Prod.mk.inj heq
  refine List.mem_map.2 ⟨q, (perm_sortBy _ _).mem_iff.2 (List.mem_filter.2 ⟨hq, ?_⟩), rfl⟩
  exact decide_eq_true horigin

theorem hostsReset_internal (n : Nat) : (n, Origin.link) ∉ (l.hostsReset g).2.owners := by
  intro h
  have hkept (ts : List Nat) (x : List (Nat × Serial) × Lib)
      (h : (n, Origin.link) ∈ (ts.foldl (fun x t => resetRequest g x t) x).2.owners) :
      (n, Origin.link) ∈ x.2.owners ∧ n ∉ ts := by
    induction ts generalizing x with
    | nil => exact ⟨h, List.not_mem_nil⟩
    | cons t ts ih =>
      obtain ⟨hmem, hts⟩ := ih _ h
      obtain ⟨hmem, ht⟩ := mem_owners_resetRequest g t x hmem
      exact ⟨hmem, fun h => (List.mem_cons.1 h).elim ht hts⟩
  obtain ⟨hmem, hnot⟩ := hkept l.hostTags ([], l) h
  exact hnot (mem_hostTags l hmem)

/-- A reel handed over makes no request of the host: its IMPORT is internal (R38). -/
theorem mem_owners_handOver (k : Nat) (s : Serial) {n : Nat} (h : (n, Origin.link) ∈ (l.handOver g k s).owners) :
    (n, Origin.link) ∈ l.owners := by
  have himport (label : Option Serial) (c : Option Nat) :
      (n, Origin.link) ∈ (l.startImport g k label s c).owners → (n, Origin.link) ∈ l.owners := by
    intro h
    unfold startImport enterQueued createInternal at h
    dsimp only at h
    rw [owners_setReqState, takeQueue, owners_updReq _ _ (by intro q; rfl)] at h
    change (n, Origin.link) ∈ List.map _ (setSlot g _ _ _).reqs.live at h
    rw [(setSlot_only g _ _ _).reqs] at h
    change (n, Origin.link) ∈ List.map _ (admitReq g _ _ _ _ _ _ _).reqs.live at h
    rw [admitReq_reqs, List.map_append, List.mem_append] at h
    obtain hold | hnew := h
    · refine owners_of_reqs (l := l) ?_ ▸ hold
      split
      · exact ((moveVol_only g s _ l).toPlace.trans (reserveHome_only g s _ _)).reqs
      · exact (moveVol_only g s _ l).reqs
    · simp [newRequest, freshRequest] at hnew
  have hmoved := (moveVol_only g s .shelf l).toPlace
  unfold handOver at h
  split at h
  · rwa [owners_of_reqs (hmoved.trans (rejectSlot_only g k _ _ _)).reqs] at h
  · split at h
    · exact himport _ _ h
    · rwa [owners_of_reqs (hmoved.trans (setSlot_only g k _ _)).reqs] at h

theorem linkReset_internal : ∀ q ∈ (l.linkReset g).reqs.live, q.origin = .internal := by
  have hkept (ys : List (Nat × Serial)) (m : Lib) {n : Nat}
      (h : (n, Origin.link) ∈ (ys.foldl (fun m y => handOver g y.1 y.2 m) m).owners) : (n, Origin.link) ∈ m.owners := by
    induction ys generalizing m with
    | nil => exact h
    | cons y ys ih => exact mem_owners_handOver g m y.1 y.2 (ih _ h)
  intro q hq
  cases horigin : q.origin with
  | internal => rfl
  | link =>
    have hmem : (q.tag, Origin.link) ∈ (l.linkReset g).owners := List.mem_map.2 ⟨q, hq, by rw [horigin]⟩
    rw [linkReset_eq] at hmem
    have htidied := hkept _ _ hmem
    rw [owners_of_reqs (tidied_only g _ l).reqs] at htidied
    exact absurd htidied (hostsReset_internal g _ _)

end

end Lib

end Sys2Proof.Machine
end

section
/-! The end of a connection and the link reset (R92, R145, R174, R192, R200, R201): what becomes of the one request of
the table, by its state. -/

namespace Sys2Proof.Machine

namespace Lib

/-! ## The turn of the one request -/

section
variable {l : Lib} {r : Request}

theorem req?_of_single (h : l.reqs.live = [r]) : l.req? r.tag = some r := by simp [req?, h]

theorem hostsReset_of_single (g : Settings) (h : l.reqs.live = [r]) (horigin : r.origin = .link) :
    l.hostsReset g = resetRequest g ([], l) r.tag := by
  have htags : l.hostTags = [r.tag] := by simp [hostTags, h, horigin, sortBy, insertBy]
  unfold hostsReset
  rw [htags]
  rfl

/-- A request that claims no slot for taking in is freed with no reel handed over (R38, R92). -/
theorem linkReset_of_freed (g : Settings) (h : l.reqs.live = [r]) (horigin : r.origin = .link)
    (hslot : l.pickSlot? r.tag = none) (hfreed : l.freedByReset r = true) :
    l.linkReset g = (l.clearAttention.resetFree g r.tag).tidied g l := by
  have hr : l.clearAttention.req? r.tag = some r := req?_of_single h
  have hover : l.clearAttention.handOverOf r.tag = none := by
    have hslot' : l.clearAttention.pickSlot? r.tag = none := hslot
    unfold handOverOf
    rw [hslot']
  have hturn : resetRequest g ([], l.clearAttention) r.tag = ([], l.clearAttention.resetFree g r.tag) := by
    unfold resetRequest
    rw [hr]
    dsimp only
    rw [if_pos (show l.clearAttention.freedByReset r = true from hfreed), hover, Option.toList_none, List.append_nil]
  rw [linkReset_eq, hostsReset_of_single g (l := l.clearAttention) h horigin, hturn, List.foldl_nil]

theorem linkReset_of_converted (g : Settings) (h : l.reqs.live = [r]) (horigin : r.origin = .link)
    (hkept : l.freedByReset r = false) : l.linkReset g = (l.clearAttention.convert g r).tidied g l := by
  have hr : l.clearAttention.req? r.tag = some r := req?_of_single h
  have hturn : resetRequest g ([], l.clearAttention) r.tag = ([], l.clearAttention.convert g r) := by
    unfold resetRequest
    rw [hr]
    dsimp only
    rw [if_neg (show ¬ l.clearAttention.freedByReset r = true from ne_true_of_eq_false hkept)]
  rw [linkReset_eq, hostsReset_of_single g (l := l.clearAttention) h horigin, hturn, List.foldl_nil]

end

/-! ## The hold of a freed request -/

/-- The request that holds a volume, when there is one (R10). -/
def holderOf (l : Lib) (s : Serial) : Option Nat := (l.vol? s).bind Volume.holder

section
variable (g : Settings) (t : Nat) (l : Lib) (x : Serial)

theorem holderOf_of_cat {l m : Lib} (h : m.cat = l.cat) (x : Serial) : m.holderOf x = l.holderOf x := by
  unfold holderOf vol?
  rw [h]

theorem holderOf_clearHome (s : Serial) (c : Cell) : (l.clearHome g s c).holderOf x = l.holderOf x := by
  unfold holderOf
  by_cases hx : x = s
  · subst hx
    rw [vol?_clearHome_self]
    cases l.vol? x <;> rfl
  · unfold clearHome
    split
    · next n _ =>
      have hcell : (l.setCell n c).vol? x = l.vol? x := vol?_of_vols (by rw [setCell_cat]) x
      rw [vol?_changeVol_other _ _ _ _ _ hx (by intro v; rfl), hcell]
    · rfl

theorem releaseReservations_holderOf (o : Order) : (l.releaseReservations g o t).holderOf x = l.holderOf x := by
  have hdrives (ds : List Nat) (m : Lib) : (ds.foldl (fun l d => l.releaseDrive d) m).cat = m.cat := by
    induction ds generalizing m with
    | nil => rfl
    | cons d ds ih => rw [List.foldl_cons, ih, releaseDrive_only]
  unfold releaseReservations
  dsimp only
  rw [holderOf_of_cat (clearMarks_cat _ _)]
  have hfreed : (freePlaceSlot g t
      (((l.servingDrives t).filter l.isReserved).foldl (fun l d => l.releaseDrive d) l)).cat = l.cat := by
    rw [freePlaceSlot_cat, hdrives]
  split
  · split
    · rw [holderOf_clearHome, holderOf_of_cat hfreed]
    · exact holderOf_of_cat hfreed x
  · exact holderOf_of_cat hfreed x

theorem dropStaged_holderOf : (l.dropStaged g t).holderOf x = l.holderOf x := by
  unfold dropStaged
  split
  · rfl
  · split
    · rw [releaseReservations_holderOf, holderOf_of_cat (unstage_only _ l).cat]
    · rfl

theorem emptyPlaceSlot_cat : (l.emptyPlaceSlot g t).cat = l.cat := by
  unfold emptyPlaceSlot
  split
  · exact changeSlot_cat g _ _ l
  · rfl

theorem resetReleased_holderOf : (l.resetReleased g t).holderOf x = l.holderOf x := by
  have hcat : (l.resetReleased g t).cat = ((l.emptyPlaceSlot g t).dropStaged g t).cat := by
    unfold resetReleased
    rw [(clearPrompts_only _ _).cat, (dropWait_only t _).cat, clearMarks_cat, leaveDrives_cat]
  rw [holderOf_of_cat hcat, dropStaged_holderOf, holderOf_of_cat (emptyPlaceSlot_cat g t l)]

/-- A freed request holds its volume no more (R11, R92). -/
theorem resetFree_holderOf {r : Request} {s : Serial} (hr : l.req? t = some r) (hcargo : r.cargo = .volume s)
    (hholder : l.holderOf s = some t) : (l.resetFree g t).holderOf s = none := by
  have hserial : (l.req? t).bind Request.serial? = some s := by simp [hr, Request.serial?, hcargo]
  obtain ⟨v, hv, hvt⟩ := Option.bind_eq_some_iff.1 ((resetReleased_holderOf g t l s).trans hholder)
  have hcat : (l.resetFree g t).cat = ((l.resetReleased g t).updVol s fun v =>
      { v with holder := v.holder.filter (· ≠ t) }).cat := by
    rw [resetFree_eq]
    change (l.resetUnheld g t).cat = _
    unfold resetUnheld
    rw [hserial]
  rw [holderOf_of_cat hcat, holderOf, vol?_updVol_self s _ _ (by intro v; rfl), hv]
  simp [hvt]

end

/-! ## The records of a converted request -/

section
variable {l : Lib} {r : Request}

theorem succeeded_live_of_single (h : l.reqs.live = [r]) :
    (l.succeeded r).reqs.live = [succeedReq l.newTag r] := by
  rw [succeeded_live, h]
  simp [succeedIn]

theorem drive_succeeded (r : Request) (l : Lib) (d : Nat) : (l.succeeded r).drive d
    = { l.drive d with serving := successor r.tag l.newTag (l.drive d).serving } := by
  simp only [drive, succeeded_drives, List.getD_eq_getElem?_getD, List.getElem?_map]
  cases l.drives[d]? <;> rfl

theorem holderOf_succeeded (r : Request) (l : Lib) {s : Serial} (h : l.holderOf s = some r.tag) :
    (l.succeeded r).holderOf s = some l.newTag := by
  obtain ⟨v, hv, hholder⟩ := Option.bind_eq_some_iff.1 h
  have hvol : (l.succeeded r).vol? s = (l.vol? s).map fun v =>
      { v with holder := successor r.tag l.newTag v.holder } := by
    unfold vol?
    rw [succeeded_vols, List.find?_map_keep _ _ (by intro v; rfl)]
  unfold holderOf
  rw [hvol, hv]
  simp [successor, hholder]

theorem convert_of_fetching (g : Settings) (h : r.state = .fetching) : l.convert g r
    = (l.succeeded r).updReq l.newTag fun q => { q with cancelPending := true } := by
  unfold convert
  simp only [h]
  rfl

theorem convert_of_mounted (g : Settings) {d : Nat} (h : r.state = .mounted) (hd : r.drive = some d) : l.convert g r
    = ((l.succeeded r).reqRewinding g l.newTag).orderUnload g d := by
  unfold convert
  simp only [h, hd]
  rfl

theorem reqRewinding_live_of_single (g : Settings) {t : Nat} {q : Request} (h : l.reqs.live = [q]) (ht : q.tag = t) :
    (l.reqRewinding g t).reqs.live
      = [{ q with accruedFrom := none, state := .rewinding, stallLeft := none, qseq := none }] := by
  have howners : (l.reqRewinding g t).owners = l.owners := by
    unfold reqRewinding
    rw [owners_setReqState, owners_reqUnmounted]
  have hlength : (l.reqRewinding g t).reqs.live.length = 1 := by
    have := congrArg List.length howners
    simpa [owners, h] using this
  refine live_eq_singleton (t := t) hlength ?_
  rw [req?_reqRewinding_self, ← ht, req?_of_single h]
  rfl

end

/-! ## What a link reset leaves of the one request -/

section
variable {l : Lib} {r : Request} (g : Settings) (hlive : l.reqs.live = [r]) (horigin : r.origin = .link)
include hlive horigin

theorem linkReset_frees (hslot : l.pickSlot? r.tag = none)
    (hstate : r.state = .done ∨ r.state = .held ∨ r.state = .queued ∨ r.state = .manual) :
    (l.linkReset g).reqs.live = [] ∧
    ∀ serial, r.cargo = .volume serial → l.holderOf serial = some r.tag → (l.linkReset g).holderOf serial = none := by
  have hfreed : l.freedByReset r = true := by
    unfold freedByReset
    rcases hstate with h | h | h | h <;> rw [h]
  rw [linkReset_of_freed g hlive horigin hslot hfreed]
  refine ⟨?_, fun serial hcargo hholder => ?_⟩
  · rw [(tidied_only g _ l).reqs, resetFree_live]
    simp [hlive]
  · rw [holderOf, vol?_of_vols (tidied_vols g _ l)]
    exact resetFree_holderOf g r.tag l.clearAttention (req?_of_single hlive) hcargo hholder

theorem linkReset_unloads {d : Nat} (hstate : r.state = .mounted) (hdrive : r.drive = some d) (hd : d < 16)
    (hshape : l.shape = specShape) :
    ∃ q, (l.linkReset g).reqs.live = [q] ∧ q.origin = .internal ∧ q.state = .rewinding ∧ q.tag = l.newTag
      ∧ q.code = some (r.code.getD .cancelled) ∧ ((l.linkReset g).drive d).state = .rewinding
      ∧ Msg.unload d ∈ (l.linkReset g).out
      ∧ ((l.drive d).serving = some r.tag → ((l.linkReset g).drive d).serving = some q.tag)
      ∧ ∀ serial, r.cargo = .volume serial → l.holderOf serial = some r.tag →
          (l.linkReset g).holderOf serial = some q.tag := by
  have hkept : l.freedByReset r = false := by unfold freedByReset; rw [hstate]
  have hconvert := convert_of_mounted (l := l.clearAttention) g hstate hdrive
  rw [linkReset_of_converted g hlive horigin hkept, hconvert, orderUnload_eq]
  generalize hm : (Lib.send _ _).updDrive d _ = m
  have hrewound : m.drive d = ((l.clearAttention.succeeded r).drive d).rewound g := by
    have hlength : d < (l.clearAttention.succeeded r).drives.length := by
      rw [succeeded_drives, List.length_map]
      exact hd.trans_eq (drives_length_of_shape hshape).symm
    rw [← hm, drive_updDrive_self _ _ _ (by rw [send_drives, reqRewinding_drives]; exact hlength),
      drive_of_drives (send_drives _ _), drive_of_drives (reqRewinding_drives _ _ _)]
  have hfinal : (m.tidied g l).drive d = m.drive d := drive_of_drives (tidied_only g m l).drives d
  refine ⟨{ succeedReq l.newTag r with accruedFrom := none, state := .rewinding, stallLeft := none, qseq := none },
    ?_, rfl, rfl, rfl, rfl, ?_, ?_, fun hserving => ?_, fun serial _ hholder => ?_⟩
  · rw [(tidied_only g m l).reqs, ← hm]
    exact reqRewinding_live_of_single g (succeeded_live_of_single (l := l.clearAttention) hlive) rfl
  · rw [hfinal, hrewound]
    rfl
  · refine (tidied_sent g m l).subset ?_
    rw [← hm]
    simp
  · rw [hfinal, hrewound, Drive.rewound_serving, drive_succeeded]
    exact if_pos hserving
  · rw [holderOf, vol?_of_vols (tidied_vols g m l)]
    have hcat : m.cat = (l.clearAttention.succeeded r).cat := by
      rw [← hm]
      exact reqRewinding_cat g _ _
    exact (holderOf_of_cat hcat serial).trans (holderOf_succeeded r l.clearAttention hholder)

theorem linkReset_marks (hstate : r.state = .fetching) (hstaged : l.stagedFor? r.tag = none) :
    ∃ q, (l.linkReset g).reqs.live = [q] ∧ q.origin = .internal ∧ q.state = .fetching ∧ q.cancelPending = true
      ∧ q.tag = l.newTag ∧ q.code = some (r.code.getD .cancelled)
      ∧ ∀ x o, (l.acc x).current = some o → o.serves = some r.tag →
          ((l.linkReset g).acc x).current = some { o with serves := some q.tag } := by
  have hkept : l.freedByReset r = false := by
    unfold freedByReset
    rw [hstate]
    dsimp only
    rw [hstaged]
    rfl
  rw [linkReset_of_converted g hlive horigin hkept, convert_of_fetching (l := l.clearAttention) g hstate]
  refine ⟨{ succeedReq l.newTag r with cancelPending := true }, ?_, rfl, hstate, rfl, rfl, rfl,
    fun x o hcurrent hserves => ?_⟩
  · rw [(tidied_only g _ l).reqs, updReq_reqs]
    dsimp only
    rw [succeeded_live_of_single (l := l.clearAttention) hlive]
    exact congrArg (· :: []) (if_pos rfl)
  · rw [acc_of_rail (tidied_only g _ l).rail, acc_of_rail (updReq_rail ..), succeeded_acc]
    have hcurrent' : (l.clearAttention.acc x).current = some o := hcurrent
    rw [hcurrent']
    exact congrArg (fun t => some { o with serves := t }) (if_pos hserves)

end

end Lib

/-! ## The steps -/

section
variable {s : State} (hl : s.live)
include hl

theorem exec_endingComplete (hconn : s.port.conn = .ending) (hreq : s.port.req = true) :
    exec .endingComplete s = .next { s with port := s.port.ends, lib := s.lib.begin } := by
  change Host.Outcome.next (portStep _ s) = _
  rw [portStep_live _ s hl]
  simp [hconn, hreq]

theorem exec_ackStallExpiry_due (hdue : s.port.stall = some 0) : exec .ackStallExpiry s = .next { s with
    port := s.port.ends, lib := if s.lib.start.state = .formatting then s.found else s.lib.begin } := by
  change execAckStallExpiry s = _
  rw [execAckStallExpiry_live s hl]
  simp [isDue, hdue]

theorem exec_linkReset : exec .linkReset s = .next { s with
    set := { s.set with mask := 0 }, port := { s.port.ends with sense := none }
    lib := (s.lib.begin.linkReset { s.set with mask := 0 }).settle { s.set with mask := 0 } } :=
  congrArg Host.Outcome.next (if_neg (ne_true_of_eq_false hl))

end

/-- Settles O15: the connection ends by `Port.ends`; the header stands through the whole reset, every host message is
withdrawn, and the host's requests go one by one, each by its state. -/
theorem connectionEnds : Obligations.ConnectionEnds := by
  unfold Obligations.ConnectionEnds
  refine ⟨fun s hl => ⟨exec_endingComplete hl, exec_ackStallExpiry_due hl, rfl, rfl, rfl, rfl⟩, fun s hl => ?_⟩
  intro g
  have hheader := Lib.linkReset_header g s.lib.begin
  refine ⟨s.lib.begin.linkReset g, exec_linkReset hl, hheader.start, hheader.store, hheader.att,
    fun hwaits k p hp => ?_, Lib.linkReset_internal g s.lib.begin, fun r hlive horigin hslot => ⟨fun hstate => ?_,
    fun d hstate hdrive hd hshape => ?_, fun hstate hstaged => ?_⟩⟩
  · refine Lib.linkReset_noMessage g s.lib.begin hwaits p ?_
    rw [← hp, List.getD_eq_getElem _ _ (Lib.lt_of_promptSlot hp)]
    exact List.getElem_mem _
  · obtain ⟨hnone, hfree⟩ := Lib.linkReset_frees (l := s.lib.begin) g hlive horigin hslot hstate
    exact ⟨hnone, fun serial v hcargo hv hholder => hfree serial hcargo (Option.bind_eq_some_iff.2 ⟨v, hv, hholder⟩)⟩
  · obtain ⟨q, hq, hinternal, hrewinding, htag, hcode, hd', hsent, hserving, hhold⟩ :=
      Lib.linkReset_unloads (l := s.lib.begin) g hlive horigin hstate hdrive hd hshape
    exact ⟨q, hq, hinternal, hrewinding, htag, hcode, hd', hsent, hserving, fun serial v hcargo hv hholder =>
      hhold serial hcargo (Option.bind_eq_some_iff.2 ⟨v, hv, hholder⟩)⟩
  · exact Lib.linkReset_marks (l := s.lib.begin) g hlive horigin hstate hstaged

end Sys2Proof.Machine
end

section
/-! Messages that the part cannot take: a floor message (R207) and a panel message (R206) that it discards.
The step that takes one only begins. -/

namespace Sys2Proof.Machine

/-- A command whose meaning is `quietStep` leaves every record, with the messages and notes of the step before gone
(log 15). -/
theorem exec_of_quietStep {c : Instr} {s : State} (hl : s.live) (hquiet : exec c s = .next (quietStep s)) :
    exec c s = .next { s with lib := { s.lib with out := [], notes := .none } } :=
  calc exec c s = .next (quietStep s) := hquiet
    _ = .next { s with lib := s.lib.begin } := congrArg Host.Outcome.next (quietStep_live s hl)

/-- Settles O31: both commands mean `quietStep`, which only begins the step. -/
theorem discardedMessagesChangeNothing : Obligations.DiscardedMessagesChangeNothing := by
  unfold Obligations.DiscardedMessagesChangeNothing
  intro s hl
  have hfloor : exec .floorMessageDiscarded s = .next (quietStep s) := rfl
  have hpanel : exec .panelMessageDiscarded s = .next (quietStep s) := rfl
  exact ⟨exec_of_quietStep hl hfloor, exec_of_quietStep hl hpanel⟩

end Sys2Proof.Machine
end
